-- ==== Sys2Proof/Word.lean ====
section
/-! DEFINITION. The word types of the BX16 tile and their plainest arithmetic (R29, R32, R54, R6). -/

namespace Sys2Proof

/-- The native datum: 48 bits (R29). -/
abbrev Cell := BitVec 48
abbrev Byte := BitVec 8
/-- One stored byte: V, D, C (R324). -/
abbrev StoredByte := BitVec 14
/-- A program word (R54). -/
abbrev PWord := BitVec 14
/-- A program word address (R34). -/
abbrev WAddr := BitVec 20
/-- The guard field of a program word (R54). -/
abbrev Guard := BitVec 2
/-- Thread number n = 8 × c + t (R6). -/
abbrev ThreadId := Fin 128
abbrev CoreId := Fin 16

/-- The core of a thread (R6). -/
def ThreadId.core (t : ThreadId) : CoreId := ⟨t.val / 8, by omega⟩
/-- The number of a thread in its core (R6). -/
def ThreadId.idx (t : ThreadId) : Nat := t.val % 8
/-- Thread t of core c (R6). -/
def threadOf (c : CoreId) (t : Fin 8) : ThreadId := ⟨8 * c.val + t.val, by omega⟩

/-- The eight threads of a core, ascending. -/
def coreThreads (c : CoreId) : List ThreadId := (List.finRange 8).map (threadOf c)

/-- A flag cell: all ones for true, 0 for false (R137, R171). -/
def flagCell (b : Bool) : Cell := if b then BitVec.allOnes 48 else 0

/-- The low 48 bits of an integer (R37). -/
def cellOfInt (i : Int) : Cell := BitVec.ofInt 48 i

/-- Is an integer outside the signed range of a cell (R37)? -/
def outsideCell (i : Int) : Bool := decide (i < -(2 ^ 47) ∨ 2 ^ 47 ≤ i)

/-- Is there a set bit in [47:36] of an address cell (R33)? -/
def upperBits (a : Cell) : Bool := decide (2 ^ 36 ≤ a.toNat)

/-- One second in units of 2⁻¹⁶ ns (R47). -/
def secondUnits : Nat := 65536000000000

end Sys2Proof
end

