-- ==== Sys2Proof/Config.lean ====
section
/-! DEFINITION. The free values: what the spec leaves open and the machine goes on with. They have no body, so no
proof can know one (notes/assumptions/4.md). -/

namespace Sys2Proof.Config

/-- Which of the two earlier core cycles a core's copy of the timebase shows (R167): a function of the boot's number,
the core cycle and the core, so that a thread's reads in one cycle agree. -/
opaque copyLag : Nat → Nat → Nat → Bool

/-- What a low of 19.04 µs to below 19.53 µs on WHISTLE is: true for a reset (R448). The argument is `State.freeCtr`. -/
opaque freeBit : Nat → Bool

/-- CH_PRESENT: whether the integrator connected logic to the customer helper port (R416, R417). -/
opaque chPresent : Bool

/-- CH_RDY in a core cycle: whether the customer logic accepts the request that stands at the port (R417). The table has no
command for it. The argument is `State.freeCtr`. -/
opaque chRdy : Nat → Bool

/-- FAB_RDY in a core cycle: whether the fabric takes the request that stands at its port (R475, R479). The table has no command for it.
The argument is `State.freeCtr`. -/
opaque fabRdy : Nat → Bool

/-- SEM_RDY in a core cycle: whether the semaphore unit takes the request that stands at its port (R475, R480). The argument is
`State.freeCtr`. -/
opaque semRdy : Nat → Bool

/-- Whether the semaphore unit has stalled the read of a thread's request by a core cycle (R141): no signal of R475 says so. The arguments
are `State.freeCtr` and the thread. -/
opaque semStalls : Nat → Nat → Bool

/-- The word the boot ROM holds at a word address (R295): the spec does not give its contents. -/
opaque bootWord : Nat → PWord

/-- The word address of the `WFE` in which the boot ROM holds the threads of a boot scope (R487): the spec does not give it. -/
opaque bootPark : WAddr

/-- The byte that the life-cycle logic takes from a kennel or keep-store byte whose code cannot be corrected (R491, R492): the spec
does not give it. The argument is the byte's address. -/
opaque unreadByte : Nat → Byte

/-- What a fill reads at an offset beyond the scratchpad, where a spill pointer that M level wrote may stand (R203):
the spec gives no byte there. -/
opaque beyondByte : Nat → Byte

end Sys2Proof.Config
end

