-- ==== Sys2Proof/Syntax.lean ====
section
/-! DEFINITION. The commands the tile takes: one constructor per row of spec/opcode_table.json, with the row's
operands (the table gives none: notes/assumptions/1.md says how they were chosen). -/

namespace Sys2Proof

/-- The privilege levels T < S < M (R228, R230). -/
inductive Level where
  | T | S | M
  deriving DecidableEq, Repr

/-- The addressing forms of a load or store: the base form, or a mode field of R71 (0 post-increment, 1 pre-decrement,
2 to 7 indexed, 8 to 31 displacement). -/
inductive AddrForm where
  | base
  | mode (m : BitVec 5)
  deriving DecidableEq, Repr

/-- Who makes a register write: a store of a thread, or the Whistle port (R455, R504). -/
inductive Agent where
  | thread (t : ThreadId)
  | whistle
  deriving DecidableEq, Repr

/-- What caused a tile reset: SRC of THR.RSTINFO (R485). -/
inductive ResetSrc where
  | pin | whistle | bite (c : CoreId) | register (t : ThreadId) | lifeCycle
  deriving DecidableEq, Repr

/-- The pins sampled at a reset (R482). -/
structure Pins where
  node : BitVec 10
  prof : BitVec 2
  deriving DecidableEq, Repr

/-- A Whistle command frame without its CMD nibble, which the row fixes: ARG, data and the CRC sent (R451, R452). -/
structure Frame where
  arg : BitVec 4
  data : Cell
  crc : BitVec 8
  deriving DecidableEq, Repr

/-- The commands. -/
inductive Instr where
  /-- BKPT (R115). -/
  | bkpt (t : ThreadId) (g : Guard)
  /-- DUP (R92). -/
  | dup (t : ThreadId) (g : Guard)
  /-- DROP (R92). -/
  | drop (t : ThreadId) (g : Guard)
  /-- SWAP (R92). -/
  | swap (t : ThreadId) (g : Guard)
  /-- OVER (R92). -/
  | over (t : ThreadId) (g : Guard)
  /-- ROT (R92). -/
  | rot (t : ThreadId) (g : Guard)
  /-- NIP (R92). -/
  | nip (t : ThreadId) (g : Guard)
  /-- TUCK (R92). -/
  | tuck (t : ThreadId) (g : Guard)
  /-- DDUP (R92). -/
  | ddup (t : ThreadId) (g : Guard)
  /-- DDROP (R92). -/
  | ddrop (t : ThreadId) (g : Guard)
  /-- DSWAP (R92). -/
  | dswap (t : ThreadId) (g : Guard)
  /-- PICK (R93). -/
  | pick (t : ThreadId) (g : Guard) (n : BitVec 4)
  /-- LIT (R62). -/
  | lit (t : ThreadId) (g : Guard) (n : BitVec 10)
  /-- LITX (R63). -/
  | litx (t : ThreadId) (g : Guard) (b : BitVec 9)
  /-- ADD (R95). -/
  | add (t : ThreadId) (g : Guard)
  /-- SUB (R95). -/
  | sub (t : ThreadId) (g : Guard)
  /-- MUL (R95). -/
  | mul (t : ThreadId) (g : Guard)
  /-- MULD (R96). -/
  | muld (t : ThreadId) (g : Guard)
  /-- DIV (R97). -/
  | div (t : ThreadId) (g : Guard)
  /-- DIVU (R97). -/
  | divu (t : ThreadId) (g : Guard)
  /-- MOD (R97). -/
  | mod (t : ThreadId) (g : Guard)
  /-- MODU (R97). -/
  | modu (t : ThreadId) (g : Guard)
  /-- NEG (R98). -/
  | neg (t : ThreadId) (g : Guard)
  /-- ABS (R98). -/
  | abs (t : ThreadId) (g : Guard)
  /-- AND (R100). -/
  | andW (t : ThreadId) (g : Guard)
  /-- OR (R100). -/
  | orW (t : ThreadId) (g : Guard)
  /-- XOR (R100). -/
  | xorW (t : ThreadId) (g : Guard)
  /-- NOT (R100). -/
  | notW (t : ThreadId) (g : Guard)
  /-- SHL (R101). -/
  | shl (t : ThreadId) (g : Guard)
  /-- SHR (R101). -/
  | shr (t : ThreadId) (g : Guard)
  /-- SAR (R101). -/
  | sar (t : ThreadId) (g : Guard)
  /-- ROL (R101). -/
  | rol (t : ThreadId) (g : Guard)
  /-- CLZ (R102). -/
  | clz (t : ThreadId) (g : Guard)
  /-- POPC (R102). -/
  | popc (t : ThreadId) (g : Guard)
  /-- BSWAP2 (R103). -/
  | bswap2 (t : ThreadId) (g : Guard)
  /-- BSWAP3 (R103). -/
  | bswap3 (t : ThreadId) (g : Guard)
  /-- BSWAP4 (R103). -/
  | bswap4 (t : ThreadId) (g : Guard)
  /-- BSWAP6 (R103). -/
  | bswap6 (t : ThreadId) (g : Guard)
  /-- EXT (R104). -/
  | ext (t : ThreadId) (g : Guard)
  /-- INS (R104). -/
  | ins (t : ThreadId) (g : Guard)
  /-- CP (R106). -/
  | cp (t : ThreadId) (g : Guard) (cond : BitVec 3) (k : BitVec 2)
  /-- CPN (R106). -/
  | cpn (t : ThreadId) (g : Guard) (cond : BitVec 3) (k : BitVec 2)
  /-- PSET (R107). -/
  | pset (t : ThreadId) (g : Guard) (k : BitVec 2)
  /-- PINV (R107). -/
  | pinv (t : ThreadId) (g : Guard) (k : BitVec 2)
  /-- BRS (R109). -/
  | brs (t : ThreadId) (g : Guard) (e : BitVec 8)
  /-- CALLS (R109). -/
  | calls (t : ThreadId) (g : Guard) (e : BitVec 8)
  /-- BR (R110). -/
  | br (t : ThreadId) (g : Guard)
  /-- CALL (R110). -/
  | call (t : ThreadId) (g : Guard)
  /-- RET (R111). -/
  | ret (t : ThreadId) (g : Guard)
  /-- NEXT (R112). -/
  | nextW (t : ThreadId) (g : Guard) (f : BitVec 8)
  /-- KILL (R114). -/
  | kill (t : ThreadId) (g : Guard)
  /-- GATE (R241). -/
  | gate (t : ThreadId) (g : Guard) (k : BitVec 8)
  /-- GRET (R244). -/
  | gret (t : ThreadId) (g : Guard)
  /-- RETI (R280). -/
  | reti (t : ThreadId) (g : Guard)
  /-- LD1 (R121). -/
  | ld1 (t : ThreadId) (g : Guard) (form : AddrForm)
  /-- LD2 (R121). -/
  | ld2 (t : ThreadId) (g : Guard) (form : AddrForm)
  /-- LD3 (R121). -/
  | ld3 (t : ThreadId) (g : Guard) (form : AddrForm)
  /-- LD4 (R121). -/
  | ld4 (t : ThreadId) (g : Guard) (form : AddrForm)
  /-- LD6 (R121). -/
  | ld6 (t : ThreadId) (g : Guard) (form : AddrForm)
  /-- LDS1 (R121). -/
  | lds1 (t : ThreadId) (g : Guard) (form : AddrForm)
  /-- LDS2 (R121). -/
  | lds2 (t : ThreadId) (g : Guard) (form : AddrForm)
  /-- LDS3 (R121). -/
  | lds3 (t : ThreadId) (g : Guard) (form : AddrForm)
  /-- LDS4 (R121). -/
  | lds4 (t : ThreadId) (g : Guard) (form : AddrForm)
  /-- LDD (R121). -/
  | ldd (t : ThreadId) (g : Guard) (form : AddrForm)
  /-- ST1 (R121). -/
  | st1 (t : ThreadId) (g : Guard) (form : AddrForm)
  /-- ST2 (R121). -/
  | st2 (t : ThreadId) (g : Guard) (form : AddrForm)
  /-- ST3 (R121). -/
  | st3 (t : ThreadId) (g : Guard) (form : AddrForm)
  /-- ST4 (R121). -/
  | st4 (t : ThreadId) (g : Guard) (form : AddrForm)
  /-- ST6 (R121). -/
  | st6 (t : ThreadId) (g : Guard) (form : AddrForm)
  /-- STD (R121). -/
  | std (t : ThreadId) (g : Guard) (form : AddrForm)
  /-- LR6 (R136). -/
  | lr6 (t : ThreadId) (g : Guard)
  /-- SC6 (R137). -/
  | sc6 (t : ThreadId) (g : Guard)
  /-- TAS (R138). -/
  | tas (t : ThreadId) (g : Guard)
  /-- CAS6 (R139). -/
  | cas6 (t : ThreadId) (g : Guard)
  /-- FENCE (R131). -/
  | fence (t : ThreadId) (g : Guard)
  /-- FLUSH (R132). -/
  | flush (t : ThreadId) (g : Guard)
  /-- INVAL (R133). -/
  | inval (t : ThreadId) (g : Guard)
  /-- PST (R147). -/
  | pst (t : ThreadId) (g : Guard)
  /-- PLD (R150). -/
  | pld (t : ThreadId) (g : Guard)
  /-- PSYNC (R149). -/
  | psync (t : ThreadId) (g : Guard)
  /-- MOVE (R153). y: the number of steps, one or more, after which a recognised request makes it yield (R156). -/
  | move (t : ThreadId) (g : Guard) (y : Option Nat)
  /-- FILL (R154); y as for MOVE. -/
  | fill (t : ThreadId) (g : Guard) (y : Option Nat)
  /-- CSUM (R155); y as for MOVE. -/
  | csum (t : ThreadId) (g : Guard) (y : Option Nat)
  /-- TNOW (R169). -/
  | tnow (t : ThreadId) (g : Guard)
  /-- TADD (R169). -/
  | tadd (t : ThreadId) (g : Guard)
  /-- TSUB (R169). -/
  | tsub (t : ThreadId) (g : Guard)
  /-- TCMP (R169). -/
  | tcmp (t : ThreadId) (g : Guard)
  /-- TSCALE (R169). -/
  | tscale (t : ThreadId) (g : Guard)
  /-- WAITT (R172). -/
  | waitt (t : ThreadId) (g : Guard)
  /-- WFE (R173). -/
  | wfe (t : ThreadId) (g : Guard)
  /-- SEV (R174). -/
  | sev (t : ThreadId) (g : Guard)
  /-- GETWORK (R181). -/
  | getwork (t : ThreadId) (g : Guard)
  /-- FORWARD (R185). -/
  | forward (t : ThreadId) (g : Guard)
  /-- DONE (R186). -/
  | doneW (t : ThreadId) (g : Guard)
  /-- DROPW (R186). -/
  | dropw (t : ThreadId) (g : Guard)
  /-- TAG (R187). -/
  | tag (t : ThreadId) (g : Guard)
  /-- UNTAG (R188). -/
  | untag (t : ThreadId) (g : Guard)
  /-- SETLAUNCH (R189). -/
  | setlaunch (t : ThreadId) (g : Guard)
  /-- LEASH (R250). -/
  | leash (t : ThreadId) (g : Guard)
  /-- UNLEASH (R255). -/
  | unleash (t : ThreadId) (g : Guard)
  /-- CRC32 (R403). -/
  | crc32 (t : ThreadId) (g : Guard)
  /-- CRC32C (R403). -/
  | crc32c (t : ThreadId) (g : Guard)
  /-- CSUM16 (R404). -/
  | csum16 (t : ThreadId) (g : Guard)
  /-- CSUMUPD (R404). -/
  | csumupd (t : ThreadId) (g : Guard)
  /-- KEYLD (R406). -/
  | keyld (t : ThreadId) (g : Guard)
  /-- GCMENC (R407). -/
  | gcmenc (t : ThreadId) (g : Guard)
  /-- GCMDEC (R407). -/
  | gcmdec (t : ThreadId) (g : Guard)
  /-- SHA256 (R409). -/
  | sha256 (t : ThreadId) (g : Guard)
  /-- SHACHAIN (R409). -/
  | shachain (t : ThreadId) (g : Guard)
  /-- LKP (R410). -/
  | lkp (t : ThreadId) (g : Guard)
  /-- LKPX (R410). -/
  | lkpx (t : ThreadId) (g : Guard)
  /-- LKPT (R410). -/
  | lkpt (t : ThreadId) (g : Guard)
  /-- HASH (R411). -/
  | hashW (t : ThreadId) (g : Guard)
  /-- SEQREC (R413). -/
  | seqrec (t : ThreadId) (g : Guard)
  /-- SEQRST (R415). -/
  | seqrst (t : ThreadId) (g : Guard)
  /-- CUSTOMER_HELPER_OP (R416). -/
  | customerHelperOp (t : ThreadId) (g : Guard) (f : BitVec 6)
  /-- HELPER_COMPLETION (R395). -/
  | helperCompletion (t : ThreadId)
  /-- CH_RESPONSE (R418). -/
  | chResponse (rid : BitVec 8) (r0 : Cell) (r1 : Cell)
  /-- CH_TIMEOUT (R418). -/
  | chTimeout (t : ThreadId)
  /-- CH_EVENT (R417). -/
  | chEvent
  /-- STORE_DRAIN (R124). meet: the drain falls into the cycle in which the thread's next word retires (R57, R116). atReset: it falls into the
  first cycle of a thread or core reset (R504). issued: the next words of the thread whose THR.PRED it writes that have read their guards by
  then (R201, R226). -/
  | storeDrain (t : ThreadId) (meet : Bool := false) (atReset : Bool := false) (issued : Nat := 0)
  /-- STORE_FAULT (R125). -/
  | storeFault (t : ThreadId)
  /-- DCACHE_FILL (R307). -/
  | dcacheFill (c : CoreId) (line : Nat)
  /-- ICACHE_FILL (R193). -/
  | icacheFill (c : CoreId) (waddr : WAddr)
  /-- SPILL_ENGINE_SPILL (R205). -/
  | spillEngineSpill (t : ThreadId) (l : Level) (rs : Bool)
  /-- SPILL_ENGINE_FILL (R205). -/
  | spillEngineFill (t : ThreadId) (rs : Bool)
  /-- MODE_SWITCH_REQUEST (R225). -/
  | modeSwitchRequest (c : CoreId) (det : Bool)
  /-- MODE_SWITCH_COMPLETE (R225). -/
  | modeSwitchComplete (c : CoreId)
  /-- BTB_INVALIDATE (R216). -/
  | btbInvalidate (c : CoreId)
  /-- WAIT_LIMIT (R170). -/
  | waitLimit (t : ThreadId)
  /-- CAS6_TIMEOUT (R141). -/
  | cas6Timeout (t : ThreadId)
  /-- SEM_RESPONSE (R480). -/
  | semResponse (t : ThreadId) (old : Cell) (st : BitVec 3)
  /-- FAB_RESPONSE (R479). -/
  | fabResponse (tag : BitVec 8) (data : BitVec 384) (st : BitVec 2)
  /-- FABRIC_TIMEOUT (R479). -/
  | fabricTimeout (tag : BitVec 8)
  /-- OWNER_RESET (R480). -/
  | ownerReset
  /-- OWNER_RESET_ACK (R480). -/
  | ownerResetAck (rom : Bool)
  /-- TIME_STEP (R164). -/
  | timeStep
  /-- PPS_EDGE (R165). -/
  | ppsEdge (bus : BitVec 96)
  /-- FOLLOW_LOAD (R165). -/
  | followLoad
  /-- PPS_MISS (R166). -/
  | ppsMiss
  /-- EXT_IRQ_EDGE (R269). -/
  | extIrqEdge (k : BitVec 8)
  /-- EXT_RETRACT (R481). -/
  | extRetract (k : BitVec 8)
  /-- SOURCE_SET_PENDING (R267). -/
  | sourceSetPending (i : BitVec 9)
  /-- EVENT_SET (R175). -/
  | eventSet (t : ThreadId)
  /-- INTERRUPT_ENTRY (R276). -/
  | interruptEntry (t : ThreadId) (inWindow : Bool)
  /-- TIC_CLAIM (R275). -/
  | ticClaim (t : ThreadId)
  /-- MACHINE_CHECK_ENTRY (R288). -/
  | machineCheckEntry
  /-- MCSTAT_READ (R286). -/
  | mcstatRead
  /-- WAKE_LATCH_READ (R270). -/
  | wakeLatchRead (k : Fin 7)
  /-- LEASH_EXPIRY (R255). -/
  | leashExpiry (t : ThreadId)
  /-- LEASH_OVERRUN (R255). -/
  | leashOverrun (t : ThreadId)
  /-- THREAD_RESET (R229). -/
  | threadReset (ag : Agent) (t : ThreadId)
  /-- CORE_RESET (R486). -/
  | coreReset (ag : Agent) (c : CoreId)
  /-- TILE_RESET (R483). -/
  | tileReset (src : ResetSrc) (held : Bool) (pins : Pins)
  /-- POWER_ON_RESET (R483). -/
  | powerOnReset (held : Bool) (pins : Pins)
  /-- WAKE_FROM_OFF (R431). -/
  | wakeFromOff (pins : Pins)
  /-- WATCHDOG_KICK (R471). -/
  | watchdogKick (ag : Agent) (c : CoreId)
  /-- WATCHDOG_CONFIGURE (R471). -/
  | watchdogConfigure (c : CoreId) (v : Cell)
  /-- WATCHDOG_BARK (R471). -/
  | watchdogBark (c : CoreId)
  /-- WATCHDOG_BITE (R471). pins: the levels that a reset of tile scope samples (R484). -/
  | watchdogBite (c : CoreId) (pins : Pins := { node := 0, prof := 0 })
  /-- HEEL_STUCK (R388). -/
  | heelStuck (t : ThreadId)
  /-- DEBUG_HALT (R459). -/
  | debugHalt
  /-- HALT_COMPLETE (R460). -/
  | haltComplete
  /-- DEBUG_RESUME (R462). -/
  | debugResume
  /-- DEBUG_STEP (R464). -/
  | debugStep
  /-- DEBUG_DETACH (R458). -/
  | debugDetach
  /-- DEBUG_SELECT (R463). -/
  | debugSelect (t : ThreadId)
  /-- DEBUG_INJECT (R465). -/
  | debugInject (ml : Bool) (w : PWord)
  /-- DPC_WRITE (R466). -/
  | dpcWrite (t : ThreadId) (pc : WAddr)
  /-- WHISTLE_BREAK (R450). -/
  | whistleBreak
  /-- WHISTLE_RESET (R448). -/
  | whistleReset (lowNs : Nat) (pins : Pins)
  /-- FRAME_TIMEOUT (R449). -/
  | frameTimeout
  /-- IDENT (R452). cmd: 0, or a CMD that no row has, 0x9 to 0xF. DESIGN CHOICE (notes/assumptions/87.md). -/
  | ident (fr : Frame) (cmd : BitVec 4 := 0)
  /-- ADDR (R452). -/
  | addrCmd (fr : Frame)
  /-- RD (R452). -/
  | rd (fr : Frame)
  /-- RDI (R452). -/
  | rdi (fr : Frame)
  /-- WR (R452). atReset: see STORE_DRAIN. -/
  | wr (fr : Frame) (atReset : Bool := false)
  /-- POLL (R454). -/
  | poll (fr : Frame)
  /-- TERMW (R469). -/
  | termw (fr : Frame)
  /-- TERMR (R469). -/
  | termr (fr : Frame)
  /-- WHISTLE_OPERATION_END (R454). -/
  | whistleOperationEnd
  /-- AUTH_CHALLENGE (R492). -/
  | authChallenge (fr : Frame)
  /-- AUTH_NONCE (R492). -/
  | authNonce (fr : Frame)
  /-- AUTH_STORE_RESPONSE (R492). -/
  | authStoreResponse (fr : Frame)
  /-- AUTH_VERIFY (R492). -/
  | authVerify (fr : Frame)
  /-- AUTH_LOCK (R492). -/
  | authLock (fr : Frame)
  /-- TERMINAL_TRANSMIT (R469). -/
  | terminalTransmit (c : CoreId) (v : Cell)
  /-- TERMINAL_RECEIVE (R469). -/
  | terminalReceive (c : CoreId)
  /-- ITEM_DESCRIPTOR (R10). kind: IDESC_KIND, 0b00, or the 0b11 that no row has (R475). DESIGN CHOICE (notes/assumptions/87.md). -/
  | itemDescriptor (c0 : Cell) (c1 : Cell) (c2 : Cell) (c3 : Cell) (kind : BitVec 2 := 0)
  /-- CANCEL (R382). -/
  | cancel (c0 : Cell) (c1 : Cell) (c2 : Cell) (c3 : Cell)
  /-- FENCE_OUT (R385). -/
  | fenceOut (c0 : Cell) (c1 : Cell) (c2 : Cell) (c3 : Cell)
  /-- FENCE_IN (R385). -/
  | fenceIn (c0 : Cell) (c1 : Cell) (c2 : Cell) (c3 : Cell)
  /-- FENCE_DRAINED (R385). -/
  | fenceDrained (c0 : Cell) (c1 : Cell) (c2 : Cell) (c3 : Cell)
  /-- STASH_BEAT (R477). -/
  | stashBeat (beat : BitVec 14) (be : BitVec 64) (data : BitVec 512)
  /-- SLOT_FILL (R365). -/
  | slotFill
  /-- SLOT_MOVE (R366). -/
  | slotMove (t : ThreadId)
  /-- LEDGER_ADVANCE (R372). -/
  | ledgerAdvance
  /-- RELEASE_RECORD (R19). -/
  | releaseRecord
  /-- DRAINED_RECORD (R387). -/
  | drainedRecord (flow : BitVec 16)
  /-- FLOW_RESET (R361). -/
  | flowReset
  /-- TAMPER (R311). -/
  | tamper
  /-- KENNEL_WIPE (R311). -/
  | kennelWipe
  /-- KENNEL_OVERWRITE_DONE (R311). -/
  | kennelOverwriteDone
  /-- BORROW_START (R316). -/
  | borrowStart (c : CoreId) (owner : ThreadId) (base : BitVec 7)
  /-- BORROW_RELEASE (R318). -/
  | borrowRelease (c : CoreId)
  /-- BORROW_COPY_IN_DONE (R316). -/
  | borrowCopyInDone (c : CoreId)
  /-- BORROW_COPY_BACK_DONE (R318). -/
  | borrowCopyBackDone (c : CoreId)
  /-- KEEP_STORE_WRITE_DONE (R322). -/
  | keepStoreWriteDone
  /-- SCRUB_STEP (R343). -/
  | scrubStep (walker : Fin 18)
  /-- FLASH_CLEAR (R348). -/
  | flashClear (bank : BitVec 7)
  /-- FLASH_CLEAR_DONE (R346). -/
  | flashClearDone
  /-- CE_COUNTER_READ (R336). -/
  | ceCounterRead (b : Fin 86)
  /-- CE_LOG_READ (R338). -/
  | ceLogRead
  /-- UE_LOG_READ (R338). -/
  | ueLogRead
  /-- LOSS_LOG_READ (R391). -/
  | lossLogRead
  /-- CORE_NAP (R428). -/
  | coreNap (c : CoreId)
  /-- CORE_DOZE (R428). -/
  | coreDoze (c : CoreId)
  /-- CORE_WAKE (R437). -/
  | coreWake (c : CoreId)
  /-- TIMED_WAKE (R434). -/
  | timedWake (who : Option CoreId)
  /-- TILE_SLEEP (R430). -/
  | tileSleep
  /-- TILE_OFF (R431). -/
  | tileOff
  /-- PWR_ACK (R439). -/
  | pwrAck
  /-- PWR_WAKE (R439). -/
  | pwrWake
  /-- PROFILE_LOAD_COMMAND (R446). -/
  | profileLoadCommand (sel : BitVec 2)
  /-- PROFILE_LOAD_COMPLETE (R446). -/
  | profileLoadComplete
  /-- HELPER_OFF_COMMAND (R438). -/
  | helperOffCommand (i : Fin 4)
  /-- HELPER_ON_COMMAND (R438). -/
  | helperOnCommand (i : Fin 4)
  /-- HELPER_POWER_OFF (R401). -/
  | helperPowerOff (i : Fin 4) (delivered : Bool := false)
  /-- HELPER_READY (R438). -/
  | helperReady (i : Fin 4)
  /-- LC_TRANSITION (R491). -/
  | lcTransition (v : Cell)
  /-- LC_TRANSITION_COMPLETE (R491). -/
  | lcTransitionComplete (pins : Pins)
  /-- TERNARY_COMMIT (R412). -/
  | ternaryCommit (v : Cell)
  /-- STREAM_RESET (R415). -/
  | streamReset (v : Cell)
  /-- REGISTER_WRITE (R7). atReset: see STORE_DRAIN. -/
  | registerWrite (ag : Agent) (addr : BitVec 36) (v : Cell) (atReset : Bool := false)
  /-- RESERVED_ENCODING (R73). -/
  | reservedEncoding (t : ThreadId) (g : Guard) (op : BitVec 12)
  /-- TIME_KEEPER_CYCLE (R160). -/
  | timeKeeperCycle
  /-- WAKE_COMPLETED (R426). -/
  | wakeCompleted (who : Option CoreId)
  /-- FRAMING_ERROR (R448). -/
  | framingError
  /-- RESET_RELEASE (R483). -/
  | resetRelease (pins : Pins)
  deriving DecidableEq, Repr

end Sys2Proof
end

