-- ==== Sys2Proof/Decode.lean ====
section
/-! DEFINITION. The opcode map of a program word (R54, R62 to R73): the decoder DBG.STEP and DBG.INJECT run, its encoder,
and `decodeTableWord`. spec/opcode_table.json gives no row any bits, so `decodeTableWord` answers none. -/

namespace Sys2Proof

/-- The memory operation with number o, in an addressing form (R70, R71). -/
def memInstr (t : ThreadId) (g : Guard) (form : AddrForm) (o : BitVec 4) : Instr :=
  match o.toNat with
  | 0 => .ld1 t g form
  | 1 => .ld2 t g form
  | 2 => .ld3 t g form
  | 3 => .ld4 t g form
  | 4 => .ld6 t g form
  | 5 => .lds1 t g form
  | 6 => .lds2 t g form
  | 7 => .lds3 t g form
  | 8 => .lds4 t g form
  | 9 => .ldd t g form
  | 10 => .st1 t g form
  | 11 => .st2 t g form
  | 12 => .st3 t g form
  | 13 => .st4 t g form
  | 14 => .st6 t g form
  | _ => .std t g form

/-- OP values 0x800 to 0x8FF (R68, R69). A FIELD word keeps its operand fields: its meaning raises FIELD. -/
def decode8 (t : ThreadId) (g : Guard) (op : BitVec 12) : Instr :=
  if op.extractLsb' 4 8 = 0x81 then .pick t g (op.extractLsb' 0 4)
  else if op.extractLsb' 5 7 = 0x44 then .cp t g (op.extractLsb' 2 3) (op.extractLsb' 0 2)
  else if op.extractLsb' 5 7 = 0x45 then .cpn t g (op.extractLsb' 2 3) (op.extractLsb' 0 2)
  else if op.extractLsb' 2 10 = 0x230 then .pset t g (op.extractLsb' 0 2)
  else if op.extractLsb' 2 10 = 0x231 then .pinv t g (op.extractLsb' 0 2)
  else match op.toNat with
  | 0x800 => .bkpt t g
  | 0x801 => .dup t g
  | 0x802 => .drop t g
  | 0x803 => .swap t g
  | 0x804 => .over t g
  | 0x805 => .rot t g
  | 0x806 => .nip t g
  | 0x807 => .tuck t g
  | 0x808 => .ddup t g
  | 0x809 => .ddrop t g
  | 0x80A => .dswap t g
  | 0x820 => .add t g
  | 0x821 => .sub t g
  | 0x822 => .mul t g
  | 0x823 => .muld t g
  | 0x824 => .div t g
  | 0x825 => .divu t g
  | 0x826 => .mod t g
  | 0x827 => .modu t g
  | 0x828 => .neg t g
  | 0x829 => .abs t g
  | 0x830 => .andW t g
  | 0x831 => .orW t g
  | 0x832 => .xorW t g
  | 0x833 => .notW t g
  | 0x834 => .shl t g
  | 0x835 => .shr t g
  | 0x836 => .sar t g
  | 0x837 => .rol t g
  | 0x838 => .clz t g
  | 0x839 => .popc t g
  | 0x840 => .bswap2 t g
  | 0x841 => .bswap3 t g
  | 0x842 => .bswap4 t g
  | 0x843 => .bswap6 t g
  | 0x850 => .ext t g
  | 0x851 => .ins t g
  | _ => .reservedEncoding t g op

/-- OP values 0xB00 to 0xBFF (R70). -/
def decodeB (t : ThreadId) (g : Guard) (op : BitVec 12) : Instr :=
  if op.extractLsb' 4 8 = 0xB1 then memInstr t g .base (op.extractLsb' 0 4)
  else match op.toNat with
  | 0xB00 => .br t g
  | 0xB01 => .call t g
  | 0xB02 => .ret t g
  | 0xB03 => .gret t g
  | 0xB04 => .reti t g
  | 0xB20 => .lr6 t g
  | 0xB21 => .sc6 t g
  | 0xB22 => .tas t g
  | 0xB23 => .cas6 t g
  | 0xB24 => .fence t g
  | 0xB25 => .flush t g
  | 0xB26 => .inval t g
  | 0xB30 => .pst t g
  | 0xB31 => .pld t g
  | 0xB32 => .psync t g
  | 0xB34 => .move t g none
  | 0xB35 => .fill t g none
  | 0xB36 => .csum t g none
  | 0xB40 => .tnow t g
  | 0xB41 => .tadd t g
  | 0xB42 => .tsub t g
  | 0xB43 => .tcmp t g
  | 0xB44 => .tscale t g
  | 0xB45 => .waitt t g
  | 0xB46 => .wfe t g
  | 0xB47 => .sev t g
  | 0xB50 => .getwork t g
  | 0xB51 => .forward t g
  | 0xB52 => .doneW t g
  | 0xB53 => .dropw t g
  | 0xB54 => .tag t g
  | 0xB55 => .untag t g
  | 0xB56 => .setlaunch t g
  | 0xB60 => .leash t g
  | 0xB61 => .unleash t g
  | 0xBFF => .kill t g
  | _ => .reservedEncoding t g op

/-- OP values 0xE00 to 0xEFF (R72 and chapter 13). -/
def decodeE (t : ThreadId) (g : Guard) (op : BitVec 12) : Instr :=
  if op.extractLsb' 6 6 = 0x3B then .customerHelperOp t g (op.extractLsb' 0 6)
  else match op.toNat with
  | 0xE00 => .crc32 t g
  | 0xE01 => .crc32c t g
  | 0xE02 => .csum16 t g
  | 0xE03 => .csumupd t g
  | 0xE40 => .keyld t g
  | 0xE41 => .gcmenc t g
  | 0xE42 => .gcmdec t g
  | 0xE48 => .sha256 t g
  | 0xE49 => .shachain t g
  | 0xE80 => .lkp t g
  | 0xE81 => .lkpx t g
  | 0xE82 => .lkpt t g
  | 0xE83 => .hashW t g
  | 0xEA0 => .seqrec t g
  | 0xEA1 => .seqrst t g
  | _ => .reservedEncoding t g op

/-- The instruction a program word stands for, on a thread (R54, R67). Total: an OP value that no instruction occupies
is `reservedEncoding` (R73). -/
def decodeWord (t : ThreadId) (w : PWord) : Instr :=
  let g : Guard := w.extractLsb' 12 2
  let op : BitVec 12 := w.extractLsb' 0 12
  let b := (op.extractLsb' 8 4).toNat
  if b < 4 then .lit t g (op.extractLsb' 0 10)
  else if b < 6 then .litx t g (op.extractLsb' 0 9)
  else if b = 6 then .brs t g (op.extractLsb' 0 8)
  else if b = 7 then .calls t g (op.extractLsb' 0 8)
  else if b = 8 then decode8 t g op
  else if b = 9 then .nextW t g (op.extractLsb' 0 8)
  else if b = 10 then .gate t g (op.extractLsb' 0 8)
  else if b = 11 then decodeB t g op
  else if b < 14 then memInstr t g (.mode (op.extractLsb' 4 5)) (op.extractLsb' 0 4)
  else if b = 14 then decodeE t g op
  else .reservedEncoding t g op

/-- Is the OP value one that no instruction occupies (R73)? -/
def opReserved (op : BitVec 12) : Bool :=
  match decodeWord 0 (0#2 ++ op) with
  | .reservedEncoding _ _ _ => true
  | _ => false

/-- The OP value of memory operation o in an addressing form (R70, R71). -/
def memOp (form : AddrForm) (o : BitVec 4) : BitVec 12 :=
  match form with
  | .base => 0xB1#8 ++ o
  | .mode m => 0x6#3 ++ m ++ o

/-- The guard and OP value of an instruction (R62 to R72); none for a command that is no program word. -/
def encodeParts : Instr → Option (Guard × BitVec 12)
  | .lit _ g n => some (g, 0#2 ++ n)
  | .litx _ g b => some (g, 0x2#3 ++ b)
  | .brs _ g e => some (g, 0x6#4 ++ e)
  | .calls _ g e => some (g, 0x7#4 ++ e)
  | .nextW _ g f => some (g, 0x9#4 ++ f)
  | .gate _ g k => some (g, 0xA#4 ++ k)
  | .pick _ g n => some (g, 0x81#8 ++ n)
  | .cp _ g c k => some (g, 0x44#7 ++ c ++ k)
  | .cpn _ g c k => some (g, 0x45#7 ++ c ++ k)
  | .pset _ g k => some (g, 0x230#10 ++ k)
  | .pinv _ g k => some (g, 0x231#10 ++ k)
  | .customerHelperOp _ g f => some (g, 0x3B#6 ++ f)
  | .reservedEncoding _ g op => some (g, op)
  | .bkpt _ g => some (g, 0x800)
  | .dup _ g => some (g, 0x801)
  | .drop _ g => some (g, 0x802)
  | .swap _ g => some (g, 0x803)
  | .over _ g => some (g, 0x804)
  | .rot _ g => some (g, 0x805)
  | .nip _ g => some (g, 0x806)
  | .tuck _ g => some (g, 0x807)
  | .ddup _ g => some (g, 0x808)
  | .ddrop _ g => some (g, 0x809)
  | .dswap _ g => some (g, 0x80A)
  | .add _ g => some (g, 0x820)
  | .sub _ g => some (g, 0x821)
  | .mul _ g => some (g, 0x822)
  | .muld _ g => some (g, 0x823)
  | .div _ g => some (g, 0x824)
  | .divu _ g => some (g, 0x825)
  | .mod _ g => some (g, 0x826)
  | .modu _ g => some (g, 0x827)
  | .neg _ g => some (g, 0x828)
  | .abs _ g => some (g, 0x829)
  | .andW _ g => some (g, 0x830)
  | .orW _ g => some (g, 0x831)
  | .xorW _ g => some (g, 0x832)
  | .notW _ g => some (g, 0x833)
  | .shl _ g => some (g, 0x834)
  | .shr _ g => some (g, 0x835)
  | .sar _ g => some (g, 0x836)
  | .rol _ g => some (g, 0x837)
  | .clz _ g => some (g, 0x838)
  | .popc _ g => some (g, 0x839)
  | .bswap2 _ g => some (g, 0x840)
  | .bswap3 _ g => some (g, 0x841)
  | .bswap4 _ g => some (g, 0x842)
  | .bswap6 _ g => some (g, 0x843)
  | .ext _ g => some (g, 0x850)
  | .ins _ g => some (g, 0x851)
  | .br _ g => some (g, 0xB00)
  | .call _ g => some (g, 0xB01)
  | .ret _ g => some (g, 0xB02)
  | .gret _ g => some (g, 0xB03)
  | .reti _ g => some (g, 0xB04)
  | .lr6 _ g => some (g, 0xB20)
  | .sc6 _ g => some (g, 0xB21)
  | .tas _ g => some (g, 0xB22)
  | .cas6 _ g => some (g, 0xB23)
  | .fence _ g => some (g, 0xB24)
  | .flush _ g => some (g, 0xB25)
  | .inval _ g => some (g, 0xB26)
  | .pst _ g => some (g, 0xB30)
  | .pld _ g => some (g, 0xB31)
  | .psync _ g => some (g, 0xB32)
  | .move _ g _ => some (g, 0xB34)
  | .fill _ g _ => some (g, 0xB35)
  | .csum _ g _ => some (g, 0xB36)
  | .tnow _ g => some (g, 0xB40)
  | .tadd _ g => some (g, 0xB41)
  | .tsub _ g => some (g, 0xB42)
  | .tcmp _ g => some (g, 0xB43)
  | .tscale _ g => some (g, 0xB44)
  | .waitt _ g => some (g, 0xB45)
  | .wfe _ g => some (g, 0xB46)
  | .sev _ g => some (g, 0xB47)
  | .getwork _ g => some (g, 0xB50)
  | .forward _ g => some (g, 0xB51)
  | .doneW _ g => some (g, 0xB52)
  | .dropw _ g => some (g, 0xB53)
  | .tag _ g => some (g, 0xB54)
  | .untag _ g => some (g, 0xB55)
  | .setlaunch _ g => some (g, 0xB56)
  | .leash _ g => some (g, 0xB60)
  | .unleash _ g => some (g, 0xB61)
  | .kill _ g => some (g, 0xBFF)
  | .crc32 _ g => some (g, 0xE00)
  | .crc32c _ g => some (g, 0xE01)
  | .csum16 _ g => some (g, 0xE02)
  | .csumupd _ g => some (g, 0xE03)
  | .keyld _ g => some (g, 0xE40)
  | .gcmenc _ g => some (g, 0xE41)
  | .gcmdec _ g => some (g, 0xE42)
  | .sha256 _ g => some (g, 0xE48)
  | .shachain _ g => some (g, 0xE49)
  | .lkp _ g => some (g, 0xE80)
  | .lkpx _ g => some (g, 0xE81)
  | .lkpt _ g => some (g, 0xE82)
  | .hashW _ g => some (g, 0xE83)
  | .seqrec _ g => some (g, 0xEA0)
  | .seqrst _ g => some (g, 0xEA1)
  | .ld1 _ g form => some (g, memOp form 0)
  | .ld2 _ g form => some (g, memOp form 1)
  | .ld3 _ g form => some (g, memOp form 2)
  | .ld4 _ g form => some (g, memOp form 3)
  | .ld6 _ g form => some (g, memOp form 4)
  | .lds1 _ g form => some (g, memOp form 5)
  | .lds2 _ g form => some (g, memOp form 6)
  | .lds3 _ g form => some (g, memOp form 7)
  | .lds4 _ g form => some (g, memOp form 8)
  | .ldd _ g form => some (g, memOp form 9)
  | .st1 _ g form => some (g, memOp form 10)
  | .st2 _ g form => some (g, memOp form 11)
  | .st3 _ g form => some (g, memOp form 12)
  | .st4 _ g form => some (g, memOp form 13)
  | .st6 _ g form => some (g, memOp form 14)
  | .std _ g form => some (g, memOp form 15)
  | _ => none

/-- The program word of an instruction (R54); none for a command that is no program word. -/
def encodeWord (i : Instr) : Option PWord := (encodeParts i).map fun p => p.1 ++ p.2

/-- The thread a program word runs on; none for a command that is no program word. -/
def wordThread : Instr → Option ThreadId
  | .bkpt t _ => some t
  | .dup t _ => some t
  | .drop t _ => some t
  | .swap t _ => some t
  | .over t _ => some t
  | .rot t _ => some t
  | .nip t _ => some t
  | .tuck t _ => some t
  | .ddup t _ => some t
  | .ddrop t _ => some t
  | .dswap t _ => some t
  | .pick t _ _ => some t
  | .lit t _ _ => some t
  | .litx t _ _ => some t
  | .add t _ => some t
  | .sub t _ => some t
  | .mul t _ => some t
  | .muld t _ => some t
  | .div t _ => some t
  | .divu t _ => some t
  | .mod t _ => some t
  | .modu t _ => some t
  | .neg t _ => some t
  | .abs t _ => some t
  | .andW t _ => some t
  | .orW t _ => some t
  | .xorW t _ => some t
  | .notW t _ => some t
  | .shl t _ => some t
  | .shr t _ => some t
  | .sar t _ => some t
  | .rol t _ => some t
  | .clz t _ => some t
  | .popc t _ => some t
  | .bswap2 t _ => some t
  | .bswap3 t _ => some t
  | .bswap4 t _ => some t
  | .bswap6 t _ => some t
  | .ext t _ => some t
  | .ins t _ => some t
  | .cp t _ _ _ => some t
  | .cpn t _ _ _ => some t
  | .pset t _ _ => some t
  | .pinv t _ _ => some t
  | .brs t _ _ => some t
  | .calls t _ _ => some t
  | .br t _ => some t
  | .call t _ => some t
  | .ret t _ => some t
  | .nextW t _ _ => some t
  | .kill t _ => some t
  | .gate t _ _ => some t
  | .gret t _ => some t
  | .reti t _ => some t
  | .ld1 t _ _ => some t
  | .ld2 t _ _ => some t
  | .ld3 t _ _ => some t
  | .ld4 t _ _ => some t
  | .ld6 t _ _ => some t
  | .lds1 t _ _ => some t
  | .lds2 t _ _ => some t
  | .lds3 t _ _ => some t
  | .lds4 t _ _ => some t
  | .ldd t _ _ => some t
  | .st1 t _ _ => some t
  | .st2 t _ _ => some t
  | .st3 t _ _ => some t
  | .st4 t _ _ => some t
  | .st6 t _ _ => some t
  | .std t _ _ => some t
  | .lr6 t _ => some t
  | .sc6 t _ => some t
  | .tas t _ => some t
  | .cas6 t _ => some t
  | .fence t _ => some t
  | .flush t _ => some t
  | .inval t _ => some t
  | .pst t _ => some t
  | .pld t _ => some t
  | .psync t _ => some t
  | .move t _ _ => some t
  | .fill t _ _ => some t
  | .csum t _ _ => some t
  | .tnow t _ => some t
  | .tadd t _ => some t
  | .tsub t _ => some t
  | .tcmp t _ => some t
  | .tscale t _ => some t
  | .waitt t _ => some t
  | .wfe t _ => some t
  | .sev t _ => some t
  | .getwork t _ => some t
  | .forward t _ => some t
  | .doneW t _ => some t
  | .dropw t _ => some t
  | .tag t _ => some t
  | .untag t _ => some t
  | .setlaunch t _ => some t
  | .leash t _ => some t
  | .unleash t _ => some t
  | .crc32 t _ => some t
  | .crc32c t _ => some t
  | .csum16 t _ => some t
  | .csumupd t _ => some t
  | .keyld t _ => some t
  | .gcmenc t _ => some t
  | .gcmdec t _ => some t
  | .sha256 t _ => some t
  | .shachain t _ => some t
  | .lkp t _ => some t
  | .lkpx t _ => some t
  | .lkpt t _ => some t
  | .hashW t _ => some t
  | .seqrec t _ => some t
  | .seqrst t _ => some t
  | .customerHelperOp t _ _ => some t
  | .reservedEncoding t _ _ => some t
  | _ => none

/-- The command a word spells by the table's bits: the table gives no row any bits, so none. -/
def decodeTableWord (_nbits _w : Nat) : Option Instr := none

end Sys2Proof
end

