-- ==== Sys2Proof/WellFormed.lean ====
section
/-! DEFINITION. Which commands are well formed: an operand that the interface it comes from cannot carry is refused here
(the types carry the rest). -/

namespace Sys2Proof

/-- Can a D-cache line start at this address (R305, R306): a multiple of 48, wholly in the general part of the shared
SRAM? -/
def lineOk (a : Nat) : Bool := decide (a % 48 = 0 ∧ 0x10000000 ≤ a ∧ a + 48 ≤ 0x10500000)

/-- Is a word address in the shared program store (R295)? -/
def inSharedStore (a : WAddr) : Bool := decide (0x10000 ≤ a.toNat ∧ a.toNat < 0x90000)

/-- Well-formed commands. -/
def Instr.wf : Instr → Bool
  | .reservedEncoding _ _ op => opReserved op
  | .dcacheFill _ line => lineOk line
  | .icacheFill _ a => inSharedStore a
  | .ident _ cmd => decide (cmd = 0 ∨ 9 ≤ cmd.toNat)
  | .itemDescriptor _ _ _ _ kind => decide (kind = 0 ∨ kind = 3)
  | .whistleReset ns _ => decide (19040 ≤ ns)
  | .registerWrite _ a _ _ => decide (0x40000000 ≤ a.toNat ∧ a.toNat < 0x50000000)
  | .authChallenge f => decide (f.arg = 0)
  | .authNonce f => decide (f.arg = 1)
  | .authStoreResponse f => decide (f.arg = 2 ∨ f.arg = 3)
  | .authVerify f => decide (f.arg = 4)
  | .authLock f => decide (f.arg = 5)
  | .sourceSetPending i => decide (i ≠ 0)
  | _ => true

end Sys2Proof
end

