-- ==== Sys2Proof/Machine/Parts.lean ====
section
/-! DEFINITION. The parts State is made of, as plain data. Each docstring names the rule of spec/ that gives the piece. -/

namespace Sys2Proof.Machine

/-- A sparse map: entries with rising keys, none equal to the default its owner reads for an unlisted key. -/
abbrev SMap (α : Type) := List (Nat × α)

/-- A cell of the physical stack file: its value, the poison bit of each byte and the bytes whose parity fails (R198,
R208). Bit j of a mask is lane j (R29). `isK`: a word of class K wrote it, and a `LITX` of it is of class K too (R83). -/
structure PCell where
  val : Cell
  poison : BitVec 6
  par : BitVec 6
  isK : Bool := false
  deriving DecidableEq, Repr

/-- One stack of one level: its limit and pointer registers and its resident cells, top first (R233). -/
structure Stk where
  lo : BitVec 17
  hi : BitVec 17
  base : BitVec 17
  sp : BitVec 17
  res : List PCell
  deriving DecidableEq, Repr

/-- The operand stack and the return stack of one level (R233). -/
structure LevelStacks where
  os : Stk
  rs : Stk
  deriving DecidableEq, Repr

/-- A gate linkage register, THR.GLINK (R243). -/
structure GLink where
  valid : Bool
  caller : Level
  nres : BitVec 2
  frames : BitVec 13
  gate : BitVec 8
  rpc : WAddr
  deriving DecidableEq, Repr

/-- The part of a thread that entry and return change (R263, R264, R280). -/
structure Arch where
  pc : WAddr
  level : Level
  p1 : Bool
  p2 : Bool
  p3 : Bool
  handler : Bool
  ipl : BitVec 4
  mcact : Bool
  stT : LevelStacks
  stS : LevelStacks
  stM : LevelStacks
  glS : GLink
  glM : GLink
  deriving DecidableEq, Repr

/-- THR.ARITH (R41). -/
structure Arith where
  dzTrap : Bool
  dz : Bool
  ov : Bool
  deriving DecidableEq, Repr

/-- THR.SFAR (R126). -/
structure Sfar where
  valid : Bool
  more : Bool
  cause : BitVec 2
  addr : BitVec 36
  deriving DecidableEq, Repr

/-- THR.LEASH (R254). `trap` is what LEASH.TRAP said of the leash's level when it was started (R253). `nest`, the model's own, counts the
frames pushed since OVRPEND set: the overrun waits until they are popped (R255). -/
structure LeashReg where
  lvl : Level
  on : Bool
  trap : Bool
  ovrpend : Bool
  ovr : Bool
  clamp : Bool
  count : BitVec 12
  nest : Nat
  deriving DecidableEq, Repr

/-- A time double: high cell and low cell (R36, R45). -/
structure Dbl where
  hi : Cell
  lo : Cell
  deriving DecidableEq, Repr

/-- The block instructions (R151). -/
inductive BlockKind where
  | move | fill | csum
  deriving DecidableEq, Repr

/-- The helper operations of chapter 13. -/
inductive HelperKind where
  | crc32 | crc32c | csum16 | csumupd | keyld | gcmenc | gcmdec | sha256 | shachain
  | lkp | lkpx | lkpt | hash | seqrec | seqrst
  deriving DecidableEq, Repr

/-- A load's shape: bytes, sign extension, whether it is LR6, and its addressing form (R121, R122, R136). -/
structure LoadShape where
  width : Nat
  signed : Bool
  lr : Bool
  form : AddrForm
  deriving DecidableEq, Repr

/-- A block instruction in progress: the three operand cells as they stand (progress), the stack order of R151. `y` is the
number of steps after which it yields, if it is to (R156). -/
structure BlockState where
  kind : BlockKind
  x : Cell      -- FILL: the cell; CSUM: acc; MOVE: src
  a : Cell      -- FILL: dst; CSUM: src; MOVE: dst
  n : Cell
  buf : List Byte   -- bytes a MOVE step has read from host memory and not yet written
  y : Option Nat
  deriving DecidableEq, Repr

/-- A request of the customer port: CH_OP, CH_ID, CH_A, CH_B and CH_C (R417). -/
structure CustReq where
  f : BitVec 6
  id : BitVec 8
  a : Cell
  b : Cell
  c : Cell
  deriving DecidableEq, Repr

/-- How far a customer request has come: it waits for the port, stands there, or has been accepted, with the cycles left to its
timeout (R418). -/
inductive CustStage where
  | waiting
  | offered
  | accepted (left : Nat)
  deriving DecidableEq, Repr

/-- How far a CAS6 request has come (R141, R480): it stands at the semaphore port or waits for it, or the unit has taken it. `left`: the
cycles to its timeout, none with TIMEOUT 0; `stalled`: the unit has stalled the read, and the thread is parked. -/
inductive Cas6Stage where
  | offered
  | taken (left : Option Nat) (stalled : Bool)
  deriving DecidableEq, Repr

/-- The boot block's fields (R487). -/
structure BootBlock where
  src : Nat
  nwords : Nat
  dest : Nat
  entry : WAddr
  check : BitVec 32
  deriving DecidableEq, Repr

/-- Where a thread stands in the boot ROM's run (R487): the boot thread copies the image, with the threads that wait for it, the bytes
it has read, and whether a read is under way; or a thread that waits in the ROM's WFE has been signalled, and goes on at ENTRY. -/
inductive RomStage where
  | copies (others : List ThreadId) (block : BootBlock) (got : List Byte) (asked : Bool)
  | called (entry : WAddr)
  deriving DecidableEq, Repr

/-- What a thread's oldest unretired word waits for: THR.STATE.PARK (R228), or an access or operation in flight. -/
inductive Pend where
  | none
  | waitt (limit : Dbl)
  | wfe (limit : Dbl)
  | getwork (limit : Dbl)
  | tag (tag : BitVec 32) (limit : Dbl)
  | cas6 (ea : BitVec 36) (st : Cas6Stage)
  | load (ld : LoadShape) (ea : BitVec 36) (next : Cell)
  | flush (sets : Nat)   -- FLUSH: the sets it has passed (R132)
  | block (b : BlockState)
  | helper (k : HelperKind) (ops : List Cell)
  | cust (q : CustReq) (st : CustStage)
  | rom (st : RomStage)
  deriving DecidableEq, Repr

/-- The predicates that the guards of a thread's next words have read already: `left` words, and what p1 to p3 were for them before a
store to THR.PRED drained (R201, R226). DEDUCED (notes/assumptions/140.md). -/
structure OldPred where
  left : Nat
  p1 : Bool
  p2 : Bool
  p3 : Bool
  deriving DecidableEq, Repr

/-- One thread (chapters 2, 3, 5, 6, 8, 9). `oldPreds`: the next words whose guards were read before a drain, oldest first. `unstack`: RETI has unstacked and no word has issued since; how the thread would stand had
it chained instead (R282). `entering`: an interrupt entry and no word since; its level and the IPL that it set (R278). `arithMet`,
`predMet`: a store to THR.ARITH or to THR.PRED drained in the cycle in which the thread's next word retires (R57, R116). `inj`: the word in flight was injected, with or without ML (R465). `robPar`: the
reorder-buffer entry of the thread's oldest unretired word fails its parity (R215). -/
structure Thread where
  arch : Arch
  unstack : Option Arch
  entering : Option (Level × BitVec 4)
  en : Bool
  stopped : Bool
  pend : Pend
  inj : Option Bool
  robPar : Bool
  arith : Arith
  arithMet : Bool
  predMet : Bool
  oldPreds : List OldPred
  ev : Bool
  sfar : Sfar
  sfPend : List (BitVec 2 × BitVec 36)
  semGroup : BitVec 4
  semTimeout : BitVec 28
  grant : Bool
  leash : LeashReg
  dwloT : BitVec 36
  dwhiT : BitVec 36
  dwloS : BitVec 36
  dwhiS : BitVec 36
  xrecT : Cell
  xrecS : Cell
  xrecM : Cell
  skip : Bool
  rstinfo : Cell
  resv : Option Nat
  slot : Option Nat
  cur : Option Nat
  desc0 : Cell
  desc1 : Cell
  desc2 : Cell
  desc3 : Cell
  dl : Dbl
  wnode : BitVec 8
  wvisit : BitVec 8
  chToggle : Bool
  chainBuf : List PWord
  chainLvl : Level
  chainAt : Option WAddr
  retPred : List WAddr
  deriving DecidableEq, Repr

/-- Where a buffered store stands: still to drain, sent to the fabric under a tag, or being written by the keep store. -/
inductive SbPhase where
  | waiting
  | sent (tag : BitVec 8)
  | keep
  deriving DecidableEq, Repr

/-- A store-buffer entry (R124): the thread, the effective address, the bytes from the lowest address, and which of them fail
their parity, bit j for byte j (R215, R329). `lvl` is the level whose rights the store had (R499). `stray`: a frame-window store
whose visit has been broken off; it still drains, and edits nothing (R16, R114). -/
structure SbEntry where
  thread : ThreadId
  lvl : Level
  ea : BitVec 36
  bytes : List Byte
  par : BitVec 12
  phase : SbPhase
  stray : Bool := false
  deriving DecidableEq, Repr

/-- A D-cache line (R305): its first byte address and its 48 stored bytes. -/
structure DLine where
  addr : Nat
  bytes : List StoredByte
  deriving DecidableEq, Repr

/-- An I-cache line (R193): its first word address and its 8 words, each with its two parity bits (R329) and the uncorrectable
mark of R350. -/
structure ILine where
  addr : Nat
  words : List (BitVec 16 × Bool)
  deriving DecidableEq, Repr

/-- A branch target buffer entry (R216). -/
structure BtbEntry where
  tag : BitVec 11
  target : WAddr
  ctr : BitVec 2
  deriving DecidableEq, Repr

/-- An update of a branch target buffer in the present core cycle: its entry and thread, and the entry before the first update of it in
this cycle (R216, R226). -/
structure BtbMark where
  idx : Nat
  thread : ThreadId
  old : Option BtbEntry
  deriving DecidableEq, Repr

/-- CORE.BORROW and the borrow buffer (R314 to R318). `back`: the copy in progress is the copy-back. -/
structure Borrow where
  active : Bool
  copying : Bool
  back : Bool
  refused : Bool
  owner : BitVec 7
  base : BitVec 7
  buf : SMap StoredByte
  deriving DecidableEq, Repr

/-- A watchdog's stage (R471). -/
inductive WdgStage where
  | off | bark | bite
  deriving DecidableEq, Repr

/-- One watchdog (R471, R472). `ticked`: a tick has come since the stage's count was loaded. -/
structure Wdg where
  bark : BitVec 24
  bite : BitVec 24
  scope : Bool
  stage : WdgStage
  count : BitVec 24
  ticked : Bool := false
  deriving DecidableEq, Repr

/-- The rest level of a core (R426). -/
inductive CoreRest where
  | run | nap | doze
  deriving DecidableEq, Repr

/-- What stands for a core's threads and woke the core as it arose (R437): an event latch, an item in a slot, a granted tag. -/
inductive CoreCall where
  | event (t : ThreadId)
  | slot (t : ThreadId) (id : Nat)
  | tag (t : ThreadId) (g : BitVec 32)
  deriving DecidableEq, Repr

/-- One core. `mapPar`: its rename map or its free list fails its parity (R284). `inReset`: a core reset waits for its
OWNER_RESET_ACK, with what THR.RSTINFO of its threads will take (R484). `dfills`: the line fills in progress, one of a host line
with the tag of its request (R307). `idle` and `rested` count the core cycles for which the conditions of Nap have held and the
core has napped (R428). `seen`, the model's own: the calls of R437 that stood in the core's latest cycle at Run and still stand.
`tau` is the earliest limit of the waits that Doze withdrew (R434), in units of 2⁻¹⁶ ns. -/
structure Core where
  enabled : Bool
  fenced : Bool
  det : Bool
  act : Bool
  rrlen : BitVec 4
  c0 : Nat
  switching : Bool
  mapPar : Bool
  inReset : Option Cell
  w12 : Bool
  mlo : BitVec 7
  slo : BitVec 7
  vbaseT : BitVec 11
  vbaseS : BitVec 11
  vbaseM : BitVec 11
  xfloor : BitVec 32
  borrow : Borrow
  leashM : BitVec 12
  leashS : BitVec 12
  leashT : BitVec 12
  leashTrap : BitVec 3
  cmpa : List (BitVec 36)
  cmpb : List Cell
  csValid : Bool
  csHit : BitVec 8
  brkhalt : Bool
  txd : Cell
  rxd : Cell
  txlost : Bool
  txfull : Bool
  rxfull : Bool
  wdg : Wdg
  lprog : SMap (BitVec 16)
  dlines : List DLine
  dfills : List (Nat × Option (BitVec 8))
  ilines : List ILine
  btb : SMap BtbEntry
  btbMark : List BtbMark
  sb : List SbEntry
  rest : CoreRest
  waking : Bool
  idle : Nat
  rested : Nat
  seen : List CoreCall
  tau : Option Int
  deriving DecidableEq, Repr

/-- TK.CTL.MODE (R163). -/
inductive TkMode where
  | free | capture | follow
  deriving DecidableEq, Repr

/-- The time keeper (R160 to R167). The timebase counts units of 2⁻⁴⁰ ns, its 24 hidden bits included. `prev1` and
`prev2` are the timebase in the two core cycles before (R167), in units of 2⁻¹⁶ ns. `load`: the cycles still to pass before the
cycle of a FOLLOW load (R165). `ppsAge`: the cycles since the last edge, none once MISS has been set for it (R166). -/
structure TimeKeeper where
  tb : Nat
  incr : Cell
  slew : BitVec 2
  mode : TkMode
  adj : Cell
  stephi : Cell
  steplo : Cell
  ppshi : Cell
  ppslo : Cell
  bushi : Cell
  buslo : Cell
  steperr : Bool
  buserr : Bool
  miss : Bool
  pps : Bool
  load : Option Nat
  ppsAge : Option Nat
  prev1 : Nat
  prev2 : Nat
  coreAcc : Nat
  aonAcc : Nat
  deriving DecidableEq, Repr

/-- A TIC source and its target mask (R267, R268). -/
structure Src where
  pend : Bool
  held : Option ThreadId
  wclass : BitVec 2
  lvl : Level
  prio : BitVec 4
  tgt : BitVec 128
  deriving DecidableEq, Repr

/-- The interrupt controller (R266 to R290). -/
structure Tic where
  src : SMap Src
  latches : BitVec 512
  mcPend : Bool
  mcMore : Bool
  mcReason : BitVec 4
  mcCore : BitVec 4
  mcThread : BitVec 7
  mctgt : BitVec 7
  deriving DecidableEq, Repr

/-- An entry of the CE or UE log (R338). -/
structure EccEntry where
  prog : Bool
  lane : BitVec 3
  syn : BitVec 6
  wr : Bool
  addr : BitVec 36
  deriving DecidableEq, Repr

/-- Counters, logs, the scrubber and flash clears (chapter 11). `walk` holds the positions of the 18 walkers, as the
number of steps taken in the pass: SH, KN, SP0 to SP15 (R342); `left` the core cycles until each walker's step is due (R343). -/
structure Ecc where
  cecnt : List (BitVec 16)
  celog : List EccEntry
  uelog : List EccEntry
  sat : Bool
  ueovf : Bool
  ceovf : Bool
  poisoned : Bool
  legacy : Bool
  rate : BitVec 5
  enSp : Bool
  enKn : Bool
  enSh : Bool
  walk : List Nat
  left : List Nat
  pass : Bool
  clearBank : BitVec 7
  clearBusy : Bool
  deriving DecidableEq, Repr

/-- KNL.STATUS (R313). -/
structure Kennel where
  trig : BitVec 2
  wiping : Bool
  done : Bool
  deriving DecidableEq, Repr

/-- Whose write the keep store performs (R321, R455, R491); `orphan`: its thread lost the word or the store. -/
inductive KeepOwner where
  | thread (t : ThreadId)
  | whistle
  | lifeCycle
  | orphan
  deriving DecidableEq, Repr

/-- One cell write of the keep store: its first byte address and its 6 lanes; a lane that the store does not reach keeps its stored
bits (R322, R331). -/
structure KeepJob where
  owner : KeepOwner
  addr : Nat
  bytes : List (Option StoredByte)
  deriving DecidableEq, Repr

/-- KS.STATUS and the cell writes still to be performed, the one in progress first (R322, R323). -/
structure KeepCtl where
  refused : Bool
  done : Bool
  todo : List KeepJob
  deriving DecidableEq, Repr

/-- Who waits for a fabric response (R479). `orphan`: the word that asked has been discarded. -/
inductive FabUse where
  | load (t : ThreadId)
  | store (t : ThreadId)
  | block (t : ThreadId)
  | whistle
  | rom (t : ThreadId)
  | orphan
  deriving DecidableEq, Repr

/-- A fabric request (R475, R479). `taken`: the fabric has taken it, `age` core cycles ago; the oldest that it has not taken stands at the
FAB port. -/
structure FabReq where
  tag : BitVec 8
  we : Bool
  addr : BitVec 28
  len : Nat
  wdata : List Byte
  owner : BitVec 17
  peek : Bool
  use : FabUse
  taken : Bool := false
  age : Nat := 0
  deriving DecidableEq, Repr

structure Fab where
  timeout : BitVec 24
  out : List FabReq
  blocked : List (BitVec 8)
  deriving DecidableEq, Repr

/-- OWNER_RESET_SCOPE and the first thread of the scope (R480). -/
inductive OwnScope where
  | thread (t : ThreadId)
  | core (c : CoreId)
  | tile
  deriving DecidableEq, Repr

/-- The ordering modes of a node (R354). -/
inductive NodeOrd where
  | ordered | atomicTag | free
  deriving DecidableEq, Repr

/-- A node table entry, FETCH.NODEA and FETCH.NODEB (R354). -/
structure Node where
  en : Bool
  ord : NodeOrd
  replay : Bool
  prio : BitVec 3
  budget : BitVec 9
  cost : BitVec 9
  pc : WAddr
  cores : BitVec 16
  aff : BitVec 4
  pathb : BitVec 9
  pathw : BitVec 9
  deriving DecidableEq, Repr

/-- A destination recorded by FORWARD (R185). -/
inductive Dest where
  | none
  | node (k : BitVec 8)
  | port (p : BitVec 10)
  deriving DecidableEq, Repr

/-- Where an item stands (R362). -/
inductive Place where
  | queued
  | slot (t : ThreadId)
  | current (t : ThreadId)
  | ready
  | hole
  deriving DecidableEq, Repr

/-- An item's request for its tag (R380, R381, R188): waiting in a TAG, lodged, granted while lodged, or held. -/
inductive TagState where
  | waiting | lodged | granted | held
  deriving DecidableEq, Repr

/-- A booking of admission work: on a core ledger or (none) the transfer ledger, at an absolute 16-cycle slot (R368). -/
structure Booking where
  core : Option CoreId
  slot : Nat
  amount : Nat
  deriving DecidableEq, Repr

/-- An item or hole in the tile (R9, R10, R358 to R377). `id` numbers acceptances, `elig` orders eligibility (R13); the item is eligible
from the core cycle `eligCyc` on. Time
figures are units of 2⁻¹⁶ ns. `slotW`, `amtW`, `slotP` and `amtP` are δ1's slot and COST, δE's slot and PATHW as
acceptance read them; `bookW` and `bookP` are what stands on the ledgers. `prio`: the descriptor's PRIO, or (none) that of the node,
after a transfer or a replay (R363). `anyCore`: admitted with no core and no token (R373).
`readyCyc`, `reached` and `lifted` are the core cycles in which it became ready, in which its launch time was reached, and in which a
cancel found that time reached or took it away (R376); `ordered` is the timebase in the comparison cycle of R23, once that cycle has
come. -/
structure Item where
  id : Nat
  arrived : Bool
  flow : BitVec 16
  seq : BitVec 24
  desc0 : Cell
  desc1 : Cell
  desc2 : Cell
  desc3 : Cell
  node : BitVec 8
  prio : Option (BitVec 3)
  elig : Nat
  eligCyc : Nat
  place : Place
  taken : Bool
  firstDone : Bool
  deadline : Int
  visit : BitVec 8
  visitCyc : Nat
  kept : SMap Byte
  edits : SMap Byte
  launch : Option Dbl
  dest : Dest
  marked : Bool
  action : BitVec 2
  port : BitVec 10
  ordered : Option Nat
  readyCyc : Nat
  reached : Option Nat
  lifted : Nat
  slotW : Nat
  amtW : Nat
  slotP : Nat
  amtP : Nat
  bookW : Option Booking
  bookP : Option Booking
  firstCore : Option CoreId
  anyCore : Bool
  token : Option CoreId
  tag : Option (BitVec 32 × TagState)
  deriving DecidableEq, Repr

/-- The fetch unit (chapter 12). `cycle` counts core cycles from the tile's reset (R368); `beta` is the β₀ the ledgers
stand at (R372). -/
structure Fetch where
  nodes : SMap Node
  admitOn : Bool
  xshare : BitVec 4
  wm : BitVec 13
  decl : Bool
  refuse : Bool
  items : List Item
  nextId : Nat
  nextElig : Nat
  ledgers : List (List Nat)
  transfer : List Nat
  cycle : Nat
  beta : Nat
  deriving DecidableEq, Repr

/-- The states of a flow (R358). -/
inductive FlowState where
  | idle | active | leaving | arriving
  deriving DecidableEq, Repr

/-- A flow's entry (R358). `leaveAt` is s of a LEAVING flow (R385); `lastRelCyc` and `drainedCyc` are the core cycles in which its last
sequence was released and in which its DRAINED token was accepted (R386). -/
structure Flow where
  state : FlowState
  free : Bool
  fresh : Bool
  nexta : BitVec 24
  nextr : BitVec 24
  infl : Nat
  leaveAt : BitVec 24
  lastRelCyc : Nat
  drainedCyc : Nat
  deriving DecidableEq, Repr

/-- A loss-log entry (R391). -/
structure LossEntry where
  cause : BitVec 2
  core : BitVec 4
  flow : BitVec 16
  seq : BitVec 24
  deriving DecidableEq, Repr

/-- The heel (chapter 12). -/
structure Heel where
  stuck : BitVec 16
  drained : Bool
  late : Bool
  lossovf : Bool
  losslog : List LossEntry
  flows : SMap Flow
  flowsel : BitVec 16
  deriving DecidableEq, Repr

/-- A crypto key slot: the key bytes (16 or 32) and the GCM hash subkey (R406). -/
structure KeySlot where
  key : List Byte
  subkey : BitVec 128
  deriving DecidableEq, Repr

/-- A ternary lookup entry (R412). -/
structure Tern where
  keyhi : Cell
  keylo : Cell
  mskhi : Cell
  msklo : Cell
  valid : Bool
  data : BitVec 32
  deriving DecidableEq, Repr

/-- The committed state of a recovery stream (R413). `last` is in units of 2⁻¹⁶ ns. -/
structure Stream where
  en : Bool
  hlenm1 : BitVec 6
  timeout : BitVec 12
  takeany : Bool
  recseq : BitVec 16
  hist : BitVec 64
  last : Nat
  deriving DecidableEq, Repr

/-- A pending update of a stream: the thread, the stream's number, its new state and the verdict (R415). -/
structure SeqPend where
  thread : ThreadId
  stream : BitVec 12
  new : Stream
  verdict : Cell
  deriving DecidableEq, Repr

/-- A request of a helper class: its thread, its class, and the instance that has taken it (R395). -/
structure HelpReq where
  thread : ThreadId
  cls : Nat
  inst : Option Nat
  deriving DecidableEq, Repr

/-- The helpers (chapter 13) and their power (R438). `reqs` holds the requests queued or running, oldest
first (R395). `ready` is CORE.IDENT.HELPERS[3:0]; `cfgWait` holds writes of SEQ.CFG that wait for a pending update. -/
structure Helpers where
  chto : BitVec 12
  detres : Bool
  chtoFlag : Bool
  off : BitVec 4
  ready : BitVec 4
  chPresent : Bool
  keys : SMap KeySlot
  lkpEn : Bool
  lkpBase : BitVec 36
  tsel : BitVec 9
  stKeyhi : Cell
  stKeylo : Cell
  stMskhi : Cell
  stMsklo : Cell
  tern : SMap Tern
  seqSel : BitVec 12
  streams : SMap Stream
  seqPend : List SeqPend
  cfgWait : List (BitVec 12 × Cell)
  reqs : List HelpReq
  deriving DecidableEq, Repr

/-- A gate table entry (R239). -/
structure GateEntry where
  enta : Cell
  entb : Cell
  deriving DecidableEq, Repr

/-- The tile's rest level, coded as PWR_LEVEL (R439). -/
inductive TileRest where
  | run | nap | sleep | off
  deriving DecidableEq, Repr

/-- The fields of a profile that a load applies (R442). -/
structure Profile where
  cores : BitVec 16
  det : BitVec 16
  clk : BitVec 2
  threads : Nat
  dthreads : Nat
  bytecode : Cell
  scrub : Cell
  fetch : Cell
  help : Cell
  leashLimit : Cell
  leashTrap : Cell
  pwrCtl : Cell
  tol : List Cell
  wdg : Cell
  graceScope : Cell
  stackS : Cell
  stackT : Cell
  xfloor : Cell
  spprot : Cell
  deriving DecidableEq, Repr

/-- The power manager (R441). `req` is the level asked of the host; `load` the commanded load that runs: its index
and the profile it read (R446). -/
structure Power where
  dozedly : BitVec 16
  napdly : BitVec 16
  descwc : BitVec 2
  offen : Bool
  sleepen : Bool
  dozeen : Bool
  napen : Bool
  tol : List (BitVec 32)
  proferr : Bool
  refused : Bool
  last : BitVec 3
  hostwake : Bool
  sel : BitVec 2
  rest : TileRest
  req : Option TileRest
  waking : Bool
  loading : Bool
  load : Option (BitVec 2 × Profile)
  deriving DecidableEq, Repr

/-- A byte that a step of an injected word writes: what was stored there, in a borrow buffer and in the core's D-cache before, and what
the step stores (R465). -/
structure ByteUndo where
  addr : Nat
  mem : StoredByte
  buf : Option StoredByte
  line : Option StoredByte
  now : StoredByte
  deriving DecidableEq, Repr

/-- What a step's write changes, as it was before (R465): the bytes, the edits of an item's frame, the line fills that the write discards,
and the reservations that it clears. -/
structure StepUndo where
  bytes : List ByteUndo
  edits : Option (Nat × SMap Byte)
  fills : List (Nat × Option (BitVec 8))
  resv : List (ThreadId × Nat)
  deriving DecidableEq, Repr

/-- Run control (R470). `cmpThreads` are the threads that comparators halted (R462); `selWait` is a selection written while a step
runs (R474); `injWait` an injected word that waits for stores or a tag before it can go on (R465); `romDue` the runs of the boot
ROM that a halt holds back, each with its scope and its reset's KIND (R487); `injUndo` what undoes the writes of the injected word, the
last first (R465). -/
structure Debug where
  attached : Bool
  rsthalt : Bool
  halted : Bool
  halting : Bool
  cause : BitVec 3
  thread : BitVec 7
  comp : BitVec 3
  stepst : BitVec 3
  selReady : Bool
  selRefused : Bool
  sel : BitVec 7
  istDone : Bool
  istExc : Bool
  istRefused : Bool
  istCause : BitVec 6
  istSub : BitVec 4
  iaddr : BitVec 36
  resumeWait : Bool
  stepping : Bool
  cmpThreads : List (BitVec 7)
  selWait : Option ThreadId
  injWait : Option (Bool × PWord)
  romDue : List (OwnScope × BitVec 3)
  injUndo : List StepUndo
  deriving DecidableEq, Repr

/-- The result of a Whistle operation: STATUS, data and the CMD it answers (R454). -/
structure WhiResult where
  status : BitVec 4
  data : Cell
  cmd : BitVec 4
  deriving DecidableEq, Repr

/-- An access of the Whistle port to host memory that no fabric tag was free for: address, length and write data. -/
structure WhiAsk where
  addr : Nat
  len : Nat
  wdata : Option (List Byte)
  deriving DecidableEq, Repr

/-- A Whistle operation answered WAIT: the command it answers, its request if it is still to be sent, and its result once
known (R454). `next` is the link address it leaves when the access reaches its target (R452). -/
structure WhiOp where
  cmd : BitVec 4
  next : BitVec 36
  ask : Option WhiAsk
  result : Option WhiResult
  deriving DecidableEq, Repr

/-- The Whistle port (R453, R454). `presenceDue`: the presence pulse of a break waits for the end of a wake (R450). -/
structure Whistle where
  link : BitVec 36
  op : Option WhiOp
  last : WhiResult
  presenceDue : Bool
  deriving DecidableEq, Repr

/-- Where a life-cycle transition stands (R491): it waits for a kennel overwrite, or writes the key and digest cells, or the
marks. -/
inductive LcPhase where
  | waiting | copying | marking
  deriving DecidableEq, Repr

/-- The life cycle and the SEALED unlock (R488 to R492). `challenge` is N_hi, N_lo of a challenge not yet used;
`blocked` is what remains of the second in which ARG 0 is refused, in 64ths of a time-keeper cycle. -/
structure LifeCycle where
  busy : Bool
  refused : Bool
  unlocked : Bool
  stateOut : BitVec 3
  target : BitVec 3
  phase : LcPhase
  challenge : Option (Cell × Cell)
  nlo : Cell
  rhi : Cell
  rlo : Cell
  blocked : Nat
  deriving DecidableEq, Repr

/-- Where the reset sequence stands (R483, R484): the tile runs; a reset pin is held low; the tile waits for the
OWNER_RESET_ACK of step 5 of a reset of a kind (KIND of R485). -/
inductive BootPhase where
  | run
  | held (kind : BitVec 3)
  | ackWait (kind : BitVec 3)
  deriving DecidableEq, Repr

/-- A release or DRAINED record on the egress port (R377, R387). -/
structure EgressRec where
  drained : Bool
  c0 : Cell
  c1 : Cell
  c2 : Cell
  c3 : Cell
  deriving DecidableEq, Repr

/-- A beat of the egress data port: EDATA_NB, EDATA_LAST, its bytes and EDATA_ERR (R475, R478). -/
structure EgressBeat where
  nb : BitVec 7
  last : Bool
  data : List Byte
  err : List Bool
  deriving DecidableEq, Repr

/-- A request of the semaphore port: SEM_TAG, SEM_ADDR, SEM_EXP, SEM_NEW, SEM_OWNER and SEM_GROUP (R475). -/
structure SemReq where
  thread : ThreadId
  addr : BitVec 28
  exp : Cell
  new : Cell
  owner : BitVec 17
  group : BitVec 4
  deriving DecidableEq, Repr

/-- What the tile last drove at its boundary (R475, R417), and the value the last register-read command returned. `edata` holds the
beats of a burst still to be sent, the one now driven first; `chDone` the CH_DONE reports in the same way. `semReq` holds the CAS6
requests that the semaphore unit has not taken: the first stands at the port. The FAB request driven is `State.fabPort`. -/
structure Ports where
  idescSt : BitVec 2
  idescStValid : Bool
  edesc : Option EgressRec
  edata : List EgressBeat
  semReq : List SemReq
  semWdr : List ThreadId
  ownReset : Option (BitVec 2 × BitVec 17)
  chReq : Option CustReq
  chDone : List (BitVec 8 × Bool)
  whistle : Option WhiResult
  presence : Bool
  rdata : Cell
  deriving DecidableEq, Repr

end Sys2Proof.Machine
end

