-- ==== Sys2Proof/Machine/Store.lean ====
section
/-! DEFINITION. Sparse maps, the byte code, the program-word codes and the byte order of cells. -/

namespace Sys2Proof.Machine

/-! ### Sparse maps -/

/-- The value at a key; an unlisted key reads as the map's default d. -/
def smGet {α : Type} (d : α) : SMap α → Nat → α
  | [], _ => d
  | e :: m, k => if e.1 = k then e.2 else smGet d m k

/-- Insert an entry at its place among rising keys. -/
def smIns {α : Type} (k : Nat) (v : α) : SMap α → SMap α
  | [] => [(k, v)]
  | e :: m => if k < e.1 then (k, v) :: e :: m else e :: smIns k v m

/-- Remove an entry. -/
def smDel {α : Type} (m : SMap α) (k : Nat) : SMap α := m.filter fun e => decide (e.1 ≠ k)

/-- Write a key. Writing the default removes the entry, so that equal contents are equal lists. -/
def smPut {α : Type} [DecidableEq α] (d : α) (m : SMap α) (k : Nat) (v : α) : SMap α :=
  if v = d then smDel m k else smIns k v (smDel m k)

/-- Write consecutive keys from k. -/
def smPuts {α : Type} [DecidableEq α] (d : α) (m : SMap α) (k : Nat) : List α → SMap α
  | [] => m
  | v :: vs => smPuts d (smPut d m k v) (k + 1) vs

/-- The canonical form: keys strictly rising from at least lo, no entry equal to the default. -/
def smWfFrom {α : Type} [DecidableEq α] (d : α) (lo : Nat) : SMap α → Bool
  | [] => true
  | e :: m => decide (lo ≤ e.1) && decide (e.2 ≠ d) && smWfFrom d (e.1 + 1) m

def smWf {α : Type} [DecidableEq α] (d : α) (m : SMap α) : Bool := smWfFrom d 0 m

/-! ### Bytes and cells -/

/-- n bytes of a number, highest first (R29, R31). -/
def natBytes (n v : Nat) : List Byte :=
  (List.range n).map fun j => BitVec.ofNat 8 (v >>> (8 * (n - 1 - j)))

/-- The number that bytes spell, highest first (R29, R31). -/
def bytesNat (bs : List Byte) : Nat := bs.foldl (fun acc b => acc * 256 + b.toNat) 0

/-- The six bytes of a cell in network order (R29). -/
def cellBytes (c : Cell) : List Byte := natBytes 6 c.toNat

/-- The cell that bytes spell, highest first. -/
def bytesCell (bs : List Byte) : Cell := BitVec.ofNat 48 (bytesNat bs)

/-- Lane j of a cell (R29). -/
def lane (c : Cell) (j : Nat) : Byte := BitVec.ofNat 8 (c.toNat >>> (8 * (5 - j)))

/-- The exclusive OR of the named bits of a number. -/
def xorBits (v : Nat) (js : List Nat) : Bool := js.foldl (fun acc j => acc ^^ v.testBit j) false

/-- Is the number of ones in the low n bits odd? -/
def oddOnes (n v : Nat) : Bool := xorBits v (List.range n)

/-- The number of ones in the low n bits. -/
def popCount (n v : Nat) : Nat := ((List.range n).filter v.testBit).length

/-! ### The byte code -/

/-- C[3:0] of a data byte (R325). -/
def codeLow (d : Byte) : BitVec 4 :=
  let v := d.toNat
  BitVec.ofBool (xorBits v [4, 5, 6, 7]) ++ BitVec.ofBool (xorBits v [1, 2, 3, 7]) ++
    BitVec.ofBool (xorBits v [0, 2, 3, 5, 6]) ++ BitVec.ofBool (xorBits v [0, 1, 3, 4, 6])

/-- C[4:0] of a data byte (R325). -/
def codeBits (d : Byte) : BitVec 5 :=
  let low := codeLow d
  BitVec.ofBool (oddOnes 8 d.toNat ^^ oddOnes 4 low.toNat) ++ low

/-- A byte as a write stores it: V set and a fresh code (R330). -/
def encByte (d : Byte) : StoredByte := 1#1 ++ d ++ codeBits d

/-- The poison pattern with V = 1 (R326, R327). -/
def poisonByte : StoredByte := 1#1 ++ 0#8 ++ 0x1F#5

/-- What a read of a stored byte finds (R326). -/
inductive ByteClass where
  | clear
  | poison
  | good (d : Byte)
  | ce (d : Byte)
  | ue
  deriving DecidableEq, Repr

/-- D of a stored byte (R324). -/
def storedData (b : StoredByte) : Byte := b.extractLsb' 5 8

/-- S[3:0] of R326. -/
def byteS (b : StoredByte) : BitVec 4 := codeLow (storedData b) ^^^ b.extractLsb' 0 4

/-- P of R326. -/
def byteP (b : StoredByte) : Bool := oddOnes 13 b.toNat

/-- SYN = P, S[3:0] (R326). -/
def byteSyn (b : StoredByte) : BitVec 5 := BitVec.ofBool (byteP b) ++ byteS b

/-- The data bit that stands at a Hamming position (R325). -/
def dataBitAt (pos : Nat) : Option Nat :=
  if pos = 3 then some 0 else if pos = 5 then some 1 else if pos = 6 then some 2 else if pos = 7 then some 3
  else if 9 ≤ pos ∧ pos ≤ 12 then some (pos - 5) else none

/-- The class of a stored byte: the first row of R326 that applies. -/
def classify (b : StoredByte) : ByteClass :=
  let d := storedData b
  let pos := (byteS b).toNat
  if b.getLsbD 13 = false then .clear
  else if popCount 13 (b.toNat ^^^ 0x1F) ≤ 1 then .poison
  else if byteP b = false then (if pos = 0 then .good d else .ue)
  else if pos = 0 ∨ pos = 1 ∨ pos = 2 ∨ pos = 4 ∨ pos = 8 then .ce d
  else match dataBitAt pos with
    | some j => .ce (d ^^^ (1#8 <<< j))
    | none => .ue

/-! ### Program-word codes -/

/-- The two parity bits of a local program word: bit 0 over W[6:0], bit 1 over W[13:7] (R329). -/
def encLocal (w : PWord) : BitVec 16 :=
  BitVec.ofBool (oddOnes 7 (w.toNat >>> 7)) ++ BitVec.ofBool (oddOnes 7 w.toNat) ++ w

/-- Does the parity of a stored local program word hold (R329)? -/
def localOk (v : BitVec 16) : Bool := encLocal (v.extractLsb' 0 14) == v

/-- The Hamming positions of W[0] to W[13] (R349). -/
def wordPos : List Nat := [3, 5, 6, 7, 9, 10, 11, 12, 13, 14, 15, 17, 18, 19]

/-- Check bits 0 to 4 of a shared-store word, as the exclusive OR of the positions of its ones (R349). -/
def checkLow (w : PWord) : BitVec 5 :=
  (wordPos.zip (List.range 14)).foldl (fun acc p => if w.getLsbD p.2 then acc ^^^ BitVec.ofNat 5 p.1 else acc) 0

/-- The 20 stored bits of a shared-store word (R349). -/
def encShared (w : PWord) : BitVec 20 :=
  BitVec.ofBool (oddOnes 14 w.toNat ^^ oddOnes 5 (checkLow w).toNat) ++ checkLow w ++ w

/-- What a read of a shared-store word finds (R349, R350). -/
inductive WordClass where
  | good (w : PWord)
  | ce (w : PWord) (syn : BitVec 6)
  | ue (w : PWord)
  deriving DecidableEq, Repr

/-- The class of a stored shared-store word (R349). -/
def classifyWord (v : BitVec 20) : WordClass :=
  let w : PWord := v.extractLsb' 0 14
  let s : BitVec 5 := checkLow w ^^^ v.extractLsb' 14 5
  let p := oddOnes 20 v.toNat
  let syn : BitVec 6 := BitVec.ofBool p ++ s
  if syn = 0 then .good w
  else if p = false then .ue w
  else if s.toNat = 0 ∨ s.toNat = 1 ∨ s.toNat = 2 ∨ s.toNat = 4 ∨ s.toNat = 8 ∨ s.toNat = 16 then .ce w syn
  else match wordPos.findIdx? (· == s.toNat) with
    | some j => .ce (w ^^^ (1#14 <<< j)) syn
    | none => .ue w

/-- The word an unlisted local program RAM address holds: KILL under p0 (R351). -/
def localKill : BitVec 16 := encLocal 0x0BFF
/-- The word an unlisted shared-store address holds: KILL under p0 (R351). -/
def sharedKill : BitVec 20 := encShared 0x0BFF

end Sys2Proof.Machine
end

