-- ==== Sys2Proof/Machine/Boot.lean ====
section
/-! DEFINITION. The values of every piece of state after a reset (R503 and the Reset columns), and the profiles (R442
to R445). -/

namespace Sys2Proof.Machine

/-! ### Profiles -/

/-- The nonzero cells of the shipped profile DRIVE (R442, R444). -/
def shippedDrive : List (Nat × Cell) :=
  [(0, 0x9F1E10000000), (1, 0xFFFF80002080), (3, 0x0000000000E6), (4, 0x000000000014),
   (5, 0x000040000001), (6, 0x000FFF100000), (7, 0x000000000007), (8, 0x040001000001),
   (13, 0x010000004000), (14, 0x010000000000), (15, 0x600006004000), (16, 0x48000A008000),
   (17, 0x0000AAAAAAAA), (18, 0x000000005030), (127, 0x00005AC35631)]

/-- The nonzero cells of the shipped profile PARK (R442, R444). -/
def shippedPark : List (Nat × Cell) :=
  [(0, 0x9F1E11000000), (1, 0x00030000C800), (3, 0x0000000000EA), (4, 0x000000000014),
   (5, 0x000040000000), (6, 0x000FFF100000), (7, 0x000000000007), (8, 0x04000100000F),
   (9, 0x0000001E8480), (10, 0x0000000186A0), (11, 0x0000004C4B40), (12, 0x0000004C4B40),
   (13, 0x1F4000010000), (14, 0x010000000001), (15, 0x600006004000), (16, 0x48000A008000),
   (17, 0x0000AAAAAAAA), (18, 0x000000005030), (127, 0x00003F6CD7A4)]

/-- The nonzero cells of the shipped profile DUMP (R442, R444). -/
def shippedDump : List (Nat × Cell) :=
  [(0, 0x9F1E12000000), (1, 0xFFFF00002000), (3, 0x0000000000E6), (4, 0x000000000014),
   (5, 0x000040000000), (6, 0x000FFF100000), (7, 0x000000000007), (8, 0x040001000003),
   (9, 0x000000002710), (10, 0x000000002710), (11, 0x000000002710), (12, 0x000000002710),
   (13, 0x010000004000), (14, 0x010000000000), (15, 0x600006004000), (16, 0x48000A008000),
   (17, 0x0000AAAAAAAA), (18, 0x000000005030), (127, 0x00008EF8A86F)]

/-- The nonzero cells of the shipped profile SERVICE (R442, R444). -/
def shippedService : List (Nat × Cell) :=
  [(0, 0x9F1E13000000), (1, 0xFFFF00006000), (3, 0x0000000000E6), (4, 0x000000000004),
   (5, 0x000040000000), (6, 0x000FFF100000), (7, 0x000000000007), (8, 0x040001000001),
   (14, 0x010000000000), (15, 0x600006004000), (16, 0x48000A008000), (17, 0x0000AAAAAAAA),
   (18, 0x000000005030), (127, 0x00003EEF1062)]

/-- The stored bytes of a cell at a byte address. -/
def cellEntries (a : Nat) (c : Cell) : SMap StoredByte :=
  ((List.range 6).map fun j => (a + j, encByte (lane c j))).filter fun e => decide (e.2 ≠ encByte 0)

/-- First byte address of profile p (R442). -/
def profileBase (p : Nat) : Nat := 0xF0000C00 + 0x300 * p

/-- The keep store as the tile is shipped: the four profiles of R444 and nothing else; a byte of 0x00 is left with V = 0,
which reads the same (R326; DESIGN CHOICE, notes/assumptions/7.md). -/
def keepFactory : SMap StoredByte :=
  ((shippedDrive.map fun e => cellEntries (profileBase 0 + 6 * e.1) e.2) ++
    (shippedPark.map fun e => cellEntries (profileBase 1 + 6 * e.1) e.2) ++
    (shippedDump.map fun e => cellEntries (profileBase 2 + 6 * e.1) e.2) ++
    (shippedService.map fun e => cellEntries (profileBase 3 + 6 * e.1) e.2)).flatten

/-- The fields a load applies, from the 128 cells of a profile (R442). -/
def profileOf (cell : Nat → Cell) : Profile where
  cores := (cell 1).extractLsb' 32 16
  det := (cell 1).extractLsb' 16 16
  clk := (cell 1).extractLsb' 14 2
  threads := ((cell 1).extractLsb' 10 4).toNat
  dthreads := ((cell 1).extractLsb' 6 4).toNat
  bytecode := cell 2
  scrub := cell 3
  fetch := cell 4
  help := cell 5
  leashLimit := cell 6
  leashTrap := cell 7
  pwrCtl := cell 8
  tol := [cell 9, cell 10, cell 11, cell 12]
  wdg := cell 13
  graceScope := cell 14
  stackS := cell 15
  stackT := cell 16
  xfloor := cell 17
  spprot := cell 18

/-- The shipped DRIVE profile (R444). -/
def driveProfile : Profile := profileOf (smGet 0 shippedDrive)

/-- What a load applies when the profile fails its checks (R445). -/
def fallbackProfile : Profile where
  cores := 0xFFFF
  det := 0
  clk := 2
  threads := 8
  dthreads := 0
  bytecode := 0
  scrub := 0xE6
  fetch := 0x14
  help := 0x40000000
  leashLimit := 0xFFF100000
  leashTrap := 7
  pwrCtl := 0x040001000001
  tol := [0, 0, 0, 0]
  wdg := 0
  graceScope := 0x010000000000
  stackS := 0
  stackT := 0
  xfloor := 0xAAAAAAAA
  spprot := 0x5050

/-- Does a profile enable a core (R442)? -/
def Profile.coreOn (p : Profile) (c : CoreId) : Bool := p.cores.getLsbD c.val

/-- Does a profile make a core deterministic (R442, R445)? -/
def Profile.coreDet (p : Profile) (c : CoreId) : Bool := p.coreOn c && p.det.getLsbD c.val

/-- E of a core: how many threads a profile enables on it (R442, R221). -/
def Profile.threadCount (p : Profile) (c : CoreId) : Nat :=
  if p.coreDet c ∧ p.dthreads ≠ 0 then p.dthreads else p.threads

/-- Does a profile enable a thread (R442)? -/
def Profile.threadOn (p : Profile) (t : ThreadId) : Bool := p.coreOn t.core && decide (t.idx < p.threadCount t.core)

/-- The divider d of the core clock: the core clock is 3 GHz ÷ d (R442). -/
def clkDiv (clk : BitVec 2) : Nat :=
  match clk.toNat with
  | 0 => 2
  | 1 => 3
  | 2 => 6
  | _ => 12

/-! ### Threads -/

/-- A stack at its base, in an area from lo to hi (R234, R443). -/
def stkAt (lo hi : Nat) : Stk :=
  let l : BitVec 17 := BitVec.ofNat 17 (min lo 0x18000)
  { lo := l, hi := BitVec.ofNat 17 (min hi 0x18000), base := l, sp := l, res := [] }

/-- The M-level areas of thread t of its core (R234). -/
def mStacks (t : Nat) : LevelStacks where
  os := stkAt (0x14000 + 0x600 * t) (0x14300 + 0x600 * t)
  rs := stkAt (0x14300 + 0x600 * t) (0x14600 + 0x600 * t)

/-- A level's areas for thread t of its core under a stack template (R443). -/
def templateStacks (c : Cell) (t : Nat) : LevelStacks :=
  let osbase := (c.extractLsb' 31 17).toNat
  let ossize := (c.extractLsb' 20 11).toNat
  let rssize := (c.extractLsb' 9 11).toNat
  let lo := osbase + 6 * (ossize + rssize) * t
  { os := stkAt lo (lo + 6 * ossize), rs := stkAt (lo + 6 * ossize) (lo + 6 * ossize + 6 * rssize) }

/-- LO as the tile treats it: never above the scratchpad's size (R235). -/
def Stk.low (k : Stk) : BitVec 17 := if 0x18000 < k.lo.toNat then 0x18000 else k.lo

/-- A stack emptied: BASE = SP = LO, no resident cell (R236). -/
def Stk.emptied (k : Stk) : Stk := { k with base := k.low, sp := k.low, res := [] }

/-- Both stacks of a level emptied (R236). -/
def LevelStacks.emptied (l : LevelStacks) : LevelStacks := { os := l.os.emptied, rs := l.rs.emptied }

/-- An invalid gate linkage (R243). -/
def GLink.clear : GLink where
  valid := false
  caller := .T
  nres := 0
  frames := 0
  gate := 0
  rpc := 0

/-- The reset entry (R484). -/
def resetEntry : WAddr := 0xFF000

/-- The architectural part of a thread after a reset, over given stacks (R229, R484). -/
def Arch.boot (stT stS stM : LevelStacks) : Arch where
  pc := resetEntry
  level := .M
  p1 := false
  p2 := false
  p3 := false
  handler := false
  ipl := 0
  mcact := false
  stT := stT.emptied
  stS := stS.emptied
  stM := stM.emptied
  glS := .clear
  glM := .clear

/-- The infinite time value of an item-less issue deadline (R183). -/
def Dbl.infinite : Dbl := { hi := 0x7FFFFFFFFFFF, lo := 0x3B9AC9FFFFFF }

/-- A leash at reset (R254). -/
def LeashReg.clear : LeashReg where
  lvl := .T
  on := false
  trap := false
  ovrpend := false
  ovr := false
  clamp := false
  count := 0
  nest := 0

/-- THR.RSTINFO (R485). -/
def rstCell (kind src : BitVec 3) (by' : BitVec 7) : Cell := kind ++ src ++ by' ++ 0#35

/-- Thread t after a reset that reloads its limits (R503). -/
def Thread.boot (p : Profile) (t : ThreadId) (rst : Cell) : Thread where
  arch := Arch.boot (templateStacks p.stackT t.idx) (templateStacks p.stackS t.idx) (mStacks t.idx)
  unstack := none
  entering := none
  en := p.threadOn t
  stopped := false
  pend := .none
  inj := none
  robPar := false
  arith := { dzTrap := false, dz := false, ov := false }
  arithMet := false
  predMet := false
  oldPreds := []
  ev := false
  sfar := { valid := false, more := false, cause := 0, addr := 0 }
  sfPend := []
  semGroup := 0
  semTimeout := 65536
  grant := false
  leash := .clear
  dwloT := 0xFFFFFFFFF
  dwhiT := 0
  dwloS := 0xFFFFFFFFF
  dwhiS := 0
  xrecT := 0
  xrecS := 0
  xrecM := 0
  skip := false
  rstinfo := rst
  resv := none
  slot := none
  cur := none
  desc0 := 0
  desc1 := 0
  desc2 := 0
  desc3 := 0
  dl := .infinite
  wnode := 0
  wvisit := 0
  chToggle := false
  chainBuf := []
  chainLvl := .M
  chainAt := none
  retPred := []

/-- A thread after a thread reset: the stack limits, the data windows, EN and CH_ID's toggle are kept (R229, R503). THR.LEASH is reset
whole; the leash's end itself sets no LEASH_OVR (R255; DEDUCED, notes/assumptions/84.md). -/
def Thread.softReset (th : Thread) (t : ThreadId) (rst : Cell) : Thread :=
  { Thread.boot fallbackProfile t rst with
    arch := Arch.boot th.arch.stT th.arch.stS th.arch.stM
    en := th.en
    dwloT := th.dwloT
    dwhiT := th.dwhiT
    dwloS := th.dwloS
    dwhiS := th.dwhiS
    chToggle := th.chToggle }

/-! ### Cores -/

/-- A watchdog kicked: COUNT holds BARK, or the watchdog is off (R471). -/
def Wdg.kicked (w : Wdg) : Wdg :=
  { w with stage := if w.bark = 0 then .off else .bark, count := w.bark }

/-- The fields of core c that a reset takes from the profile or resets, over what the reset keeps (R503): the comparators
are kept, and so are CORE.IDENT's constants, the local program RAM and the core's number of the mode's first cycle. ACT is 0, and a
core that the profile makes deterministic stands in the switch of R225 (R224; DEDUCED, notes/assumptions/86.md). -/
def Core.boot (p : Profile) (c : CoreId) : Core where
  enabled := p.coreOn c
  fenced := false
  det := p.coreDet c
  act := false
  rrlen := BitVec.ofNat 4 (p.threadCount c)
  c0 := 0
  switching := p.coreDet c
  mapPar := false
  inReset := none
  w12 := false
  mlo := p.spprot.extractLsb' 8 7
  slo := p.spprot.extractLsb' 0 7
  vbaseT := 0
  vbaseS := 0
  vbaseM := 0x7FF
  xfloor := (p.xfloor.extractLsb' 0 32 &&& 0xFFF3FFFF#32) ||| 0x00080000#32
  borrow := { active := false, copying := false, back := false, refused := false, owner := 0, base := 0, buf := [] }
  leashM := p.leashLimit.extractLsb' 24 12
  leashS := p.leashLimit.extractLsb' 12 12
  leashT := p.leashLimit.extractLsb' 0 12
  leashTrap := p.leashTrap.extractLsb' 0 3
  cmpa := List.replicate 8 0
  cmpb := List.replicate 8 0
  csValid := false
  csHit := 0
  brkhalt := false
  txd := 0
  rxd := 0
  txlost := false
  txfull := false
  rxfull := false
  wdg := Wdg.kicked
    { bark := p.wdg.extractLsb' 24 24, bite := p.wdg.extractLsb' 0 24, scope := p.graceScope.getLsbD 0, stage := .off, count := 0 }
  lprog := []
  dlines := []
  dfills := []
  ilines := []
  btb := []
  btbMark := []
  sb := []
  rest := .run
  waking := false
  idle := 0
  rested := 0
  seen := []
  tau := none

/-! ### The tile's units -/

/-- DESIGN CHOICE (notes/assumptions/55.md). -/
def TimeKeeper.boot : TimeKeeper where
  tb := 0
  incr := 0x00AAAAAAAAAB
  slew := 0
  mode := .free
  adj := 0
  stephi := 0
  steplo := 0
  ppshi := 0
  ppslo := 0
  bushi := 0
  buslo := 0
  steperr := false
  buserr := false
  miss := false
  pps := false
  load := none
  ppsAge := some 0
  prev1 := 0
  prev2 := 0
  coreAcc := 0
  aonAcc := 0

/-- The core cycles between two steps of a walker: 2^RATE, a RATE below 4 acting as 4 and one above 20 as 20 (R343, R344). -/
def walkInterval (rate : BitVec 5) : Nat := 2 ^ max 4 (min 20 rate.toNat)

/-- A TIC source at reset: what an unlisted source reads as (R267, R268). -/
def Src.boot : Src where
  pend := false
  held := none
  wclass := 0
  lvl := .M
  prio := 0
  tgt := 0

def Tic.boot : Tic where
  src := []
  latches := 0
  mcPend := false
  mcMore := false
  mcReason := 0
  mcCore := 0
  mcThread := 0
  mctgt := 0

/-- The ECC unit and the scrubber after a reset that loads a profile (R336, R344, R503). Every walker starts at its first cell, as the POS of
SH does (DESIGN CHOICE, notes/assumptions/144.md). -/
def Ecc.boot (p : Profile) : Ecc where
  cecnt := List.replicate 86 0
  celog := []
  uelog := []
  sat := false
  ueovf := false
  ceovf := false
  poisoned := false
  legacy := p.bytecode.getLsbD 0
  rate := p.scrub.extractLsb' 0 5
  enSp := p.scrub.getLsbD 7
  enKn := p.scrub.getLsbD 6
  enSh := p.scrub.getLsbD 5
  walk := List.replicate 18 0
  left := List.replicate 18 (walkInterval (p.scrub.extractLsb' 0 5))
  pass := false
  clearBank := 0
  clearBusy := false

def Kennel.boot : Kennel := { trig := 0, wiping := false, done := false }

def KeepCtl.boot : KeepCtl := { refused := false, done := false, todo := [] }

def Fab.boot : Fab := { timeout := 150000, out := [], blocked := [] }

/-- A node table entry at reset (R354). -/
def Node.boot : Node where
  en := false
  ord := .ordered
  replay := false
  prio := 0
  budget := 0
  cost := 0
  pc := 0
  cores := 0
  aff := 0
  pathb := 0
  pathw := 0

def Fetch.boot (p : Profile) : Fetch where
  nodes := []
  admitOn := p.fetch.getLsbD 4
  xshare := p.fetch.extractLsb' 0 4
  wm := 3072
  decl := false
  refuse := false
  items := []
  nextId := 0
  nextElig := 0
  ledgers := List.replicate 16 (List.replicate 32 0)
  transfer := List.replicate 32 0
  cycle := 0
  beta := 0

/-- A flow at reset: IDLE and FRESH (R358, R361). -/
def Flow.boot : Flow where
  state := .idle
  free := false
  fresh := true
  nexta := 0
  nextr := 0
  infl := 0
  leaveAt := 0
  lastRelCyc := 0
  drainedCyc := 0

def Heel.boot : Heel where
  stuck := 0x400
  drained := false
  late := false
  lossovf := false
  losslog := []
  flows := []
  flowsel := 0

def KeySlot.empty : KeySlot := { key := [], subkey := 0 }

def Tern.boot : Tern := { keyhi := 0, keylo := 0, mskhi := 0, msklo := 0, valid := false, data := 0 }

/-- A recovery stream at reset (R413). -/
def Stream.boot : Stream where
  en := false
  hlenm1 := 0
  timeout := 0
  takeany := true
  recseq := 0
  hist := 0
  last := 0

def Helpers.boot (p : Profile) : Helpers where
  chto := p.help.extractLsb' 20 12
  detres := p.help.getLsbD 0
  chtoFlag := false
  off := 0
  ready := 0xF
  chPresent := Config.chPresent
  keys := []
  lkpEn := false
  lkpBase := 0
  tsel := 0
  stKeyhi := 0
  stKeylo := 0
  stMskhi := 0
  stMsklo := 0
  tern := []
  seqSel := 0
  streams := []
  seqPend := []
  cfgWait := []
  reqs := []

def GateEntry.boot : GateEntry := { enta := 0, entb := 0 }

def Power.boot (p : Profile) (err : Bool) : Power where
  dozedly := p.pwrCtl.extractLsb' 32 16
  napdly := p.pwrCtl.extractLsb' 16 16
  descwc := p.pwrCtl.extractLsb' 4 2
  offen := p.pwrCtl.getLsbD 3
  sleepen := p.pwrCtl.getLsbD 2
  dozeen := p.pwrCtl.getLsbD 1
  napen := p.pwrCtl.getLsbD 0
  tol := p.tol.map fun c => c.extractLsb' 0 32
  proferr := err
  refused := false
  last := 0
  hostwake := false
  sel := 0
  rest := .run
  req := none
  waking := false
  loading := false
  load := none

def Debug.boot : Debug where
  attached := false
  rsthalt := false
  halted := false
  halting := false
  cause := 0
  thread := 0
  comp := 0
  stepst := 0
  selReady := false
  selRefused := false
  sel := 0
  istDone := false
  istExc := false
  istRefused := false
  istCause := 0
  istSub := 0
  iaddr := 0
  resumeWait := false
  stepping := false
  cmpThreads := []
  selWait := none
  injWait := none
  romDue := []
  injUndo := []

/-- What POLL returns after a reset until the next command: REFUSED with data 0 (R454). -/
def WhiResult.afterReset : WhiResult := { status := 6, data := 0, cmd := 5 }

def Whistle.boot : Whistle := { link := 0, op := none, last := .afterReset, presenceDue := false }

/-- DESIGN CHOICE (notes/assumptions/74.md). -/
def LifeCycle.boot : LifeCycle where
  busy := false
  refused := false
  unlocked := false
  stateOut := 0
  target := 0
  phase := .waiting
  challenge := none
  nlo := 0
  rhi := 0
  rlo := 0
  blocked := 0

/-- DESIGN CHOICE (notes/assumptions/5.md). -/
def Ports.boot : Ports where
  idescSt := 0
  idescStValid := false
  edesc := none
  edata := []
  semReq := []
  semWdr := []
  ownReset := none
  chReq := none
  chDone := []
  whistle := none
  presence := false
  rdata := 0

/-- One thread per thread number. -/
def allThreads (f : ThreadId → Thread) : Vector Thread 128 :=
  ⟨((List.finRange 128).map f).toArray, by simp⟩

/-- One core per core number. -/
def allCores (f : CoreId → Core) : Vector Core 16 :=
  ⟨((List.finRange 16).map f).toArray, by simp⟩

end Sys2Proof.Machine
end

