-- ==== Sys2Proof/Machine/State.lean ====
section
/-! DEFINITION. The state of the tile, as plain data, its reasons to stop, and its value after reset. INVENTORY.md lists
every field with its rule. -/

namespace Sys2Proof.Machine

/-- Reasons the machine faults. No rule of the spec stops the tile, so no meaning raises one. -/
inductive Fault where
  /-- Raised by nobody: the spec gives every command an effect. Safe: a stop proves nothing false. -/
  | stuck
  deriving DecidableEq, Repr

/-- Reasons the machine refuses a command. -/
inductive Refusal where
  /-- Raised by an arm of `exec` whose command has no meaning yet. Safe: a stop proves nothing false. -/
  | notModelled (mnemonic : String)
  deriving DecidableEq, Repr

/-- The state of the BX16 tile, with the queue of waiting commands. -/
structure State where
  /-- The 128 threads, by thread number (R6). -/
  threads : Vector Thread 128
  /-- The 16 cores (R6). -/
  cores : Vector Core 16
  /-- Byte-coded storage by absolute byte address (R291, R324). A scratchpad stands at its view in the 0x0_0100_0000
  block. An unlisted byte has V = 0 and reads as 0x00 (R328). -/
  mem : SMap StoredByte
  /-- The shared program store by word address (R349); an unlisted word is KILL (R351). -/
  sprog : SMap (BitVec 20)
  /-- TILE.IDENT.NODE (R3). -/
  node : BitVec 10
  /-- NODE_ID and PROFILE_SEL as the latest reset sampled them (R482). -/
  pins : Pins
  /-- PWR.STATUS.PROF (R441). -/
  profIdx : BitVec 2
  /-- The fields of the profile in effect (R442). -/
  profile : Profile
  tk : TimeKeeper
  tic : Tic
  ecc : Ecc
  knl : Kennel
  ks : KeepCtl
  fab : Fab
  /-- Scopes that OWNER_RESET is still to signal, oldest first, and the one that awaits its acknowledgement (R480). -/
  ownq : List OwnScope
  ownWait : Option OwnScope
  fetch : Fetch
  heel : Heel
  help : Helpers
  /-- The gate table (R239). -/
  gates : SMap GateEntry
  pwr : Power
  /-- WDG.GRACE (R472). -/
  grace : BitVec 24
  dbg : Debug
  whi : Whistle
  lc : LifeCycle
  boot : BootPhase
  /-- Responses that arrived during a debug halt: they are accepted and held until the release (R460). -/
  held : List Instr
  ports : Ports
  /-- The model's own counters, not the spec's: boots so far (it freshens `Config.copyLag`), and the lows on WHISTLE and the core cycles at
  whose free inputs `Config.freeBit`, `Config.fabRdy`, `Config.semRdy` and `Config.semStalls` have been read so far. -/
  epoch : Nat
  freeCtr : Nat
  /-- The commands that wait, first in, first out. -/
  pending : List Instr
  deriving DecidableEq, Repr

/-- The tile right after power-on reset, at step 6 of R484, with the shipped profile DRIVE in effect.
DESIGN CHOICE (notes/assumptions/8.md). -/
def State.reset : State where
  threads := allThreads fun t => Thread.boot driveProfile t (rstCell 0 0 0)
  cores := allCores fun c => Core.boot driveProfile c
  mem := keepFactory
  sprog := []
  node := 0
  pins := { node := 0, prof := 0 }
  profIdx := 0
  profile := driveProfile
  tk := TimeKeeper.boot
  tic := Tic.boot
  ecc := Ecc.boot driveProfile
  knl := Kennel.boot
  ks := KeepCtl.boot
  fab := Fab.boot
  ownq := []
  ownWait := none
  fetch := Fetch.boot driveProfile
  heel := Heel.boot
  help := Helpers.boot driveProfile
  gates := []
  pwr := Power.boot driveProfile false
  grace := driveProfile.graceScope.extractLsb' 24 24
  dbg := Debug.boot
  whi := Whistle.boot
  lc := LifeCycle.boot
  boot := .run
  held := []
  ports := Ports.boot
  epoch := 0
  freeCtr := 0
  pending := []

end Sys2Proof.Machine
end

