-- ==== Sys2Proof/Machine/Storage.lean ====
section
/-! DEFINITION. Accessors of State, the raising of interrupt sources, and byte-coded storage: banks, the CE log, the
borrow window, reads and writes of stored bytes (chapters 9, 10 and 11). -/

namespace Sys2Proof.Machine

/-! ### Accessors -/

def State.thr (s : State) (t : ThreadId) : Thread := s.threads[t.val]
/-- The tile is frozen by a debug halt (R460). -/
def State.frozen (s : State) : Bool := s.dbg.halted || s.dbg.halting
def State.setThr (s : State) (t : ThreadId) (x : Thread) : State := { s with threads := s.threads.set t.val x }
def State.modThr (s : State) (t : ThreadId) (f : Thread → Thread) : State := s.setThr t (f (s.thr t))
def State.cor (s : State) (c : CoreId) : Core := s.cores[c.val]
def State.setCor (s : State) (c : CoreId) (x : Core) : State := { s with cores := s.cores.set c.val x }
def State.modCor (s : State) (c : CoreId) (f : Core → Core) : State := s.setCor c (f (s.cor c))
def State.modArch (s : State) (t : ThreadId) (f : Arch → Arch) : State :=
  s.modThr t fun th => { th with arch := f th.arch }

/-- Every thread number, ascending. -/
def threadIds : List ThreadId := List.finRange 128
/-- Every core number, ascending. -/
def coreIds : List CoreId := List.finRange 16

/-- Apply a change to every thread. -/
def State.mapThreads (s : State) (f : Thread → Thread) : State := { s with threads := s.threads.map f }

/-! ### Interrupt sources -/

/-- Does a source hold state (R266, R267)? -/
def srcExists (i : Nat) : Bool :=
  decide ((1 ≤ i ∧ i ≤ 13) ∨ (16 ≤ i ∧ i ≤ 55) ∨ (64 ≤ i ∧ i ≤ 447))

/-- Has a source an always-on latch (R266)? -/
def srcAon (i : Nat) : Bool :=
  decide (i = 7 ∨ (16 ≤ i ∧ i ≤ 31) ∨ (35 ≤ i ∧ i ≤ 38) ∨ (64 ≤ i ∧ i ≤ 319))

def State.src (s : State) (i : Nat) : Src := smGet Src.boot s.tic.src i
def State.setSrc (s : State) (i : Nat) (x : Src) : State :=
  { s with tic := { s.tic with src := smPut Src.boot s.tic.src i x } }

/-- Are the rest levels emulated: a debugger is attached (R458), and the tile has left the level in which its break met it (R450)? -/
def State.emulates (s : State) : Bool := s.dbg.attached && !s.whi.presenceDue

/-- Does the TIC's clock stand still: the tile rests, and its level is not an emulated one (R270, R450, R458)? -/
def State.ticStopped (s : State) : Bool := decide (s.pwr.rest ≠ .run) && !s.emulates

/-- A rising edge on a source: PEND sets (R269); while the TIC's clock is stopped, the always-on latch catches the edge of
a source that has one (R270). -/
def raiseSrc (i : Nat) (s : State) : State :=
  if srcExists i = false then s
  else if s.ticStopped then
    (if srcAon i then { s with tic := { s.tic with latches := s.tic.latches ||| (1#512 <<< i) } } else s)
  else s.setSrc i { s.src i with pend := true }

/-- A source's request vanishes: PEND clears and any hold is released (R271, R274). -/
def retractSrc (i : Nat) (s : State) : State := s.setSrc i { s.src i with pend := false, held := none }

/-- Release the hold of a source, PEND staying as it is (R274). -/
def releaseHold (i : Nat) (s : State) : State := s.setSrc i { s.src i with held := none }

/-! ### Regions of stored bytes -/

/-- First byte address of the view of a core's scratchpad (R291). -/
def spadBase (c : Nat) : Nat := 0x01000000 + c * 0x20000

/-- The core whose scratchpad view holds a byte address (R291). -/
def spadCore (a : Nat) : Option CoreId :=
  if h : 0x01000000 ≤ a ∧ a < 0x01200000 ∧ (a - 0x01000000) % 0x20000 < 0x18000
  then some ⟨(a - 0x01000000) / 0x20000, by omega⟩ else none

/-- The offset of a byte in its scratchpad. -/
def spadOff (a : Nat) : Nat := (a - 0x01000000) % 0x20000

def isKeep (a : Nat) : Bool := decide (0xF0000000 ≤ a ∧ a < 0xF0020000)
def isKennel (a : Nat) : Bool := decide (0x10700000 ≤ a ∧ a < 0x10760000)

/-- The bank number of a stored byte (R336). -/
def bankOf (a : Nat) : Nat :=
  match spadCore a with
  | some c => 20 + 4 * c.val + (spadOff a / 6) % 4
  | none => if isKeep a then 84 else if isKennel a then 16 + (a / 6) % 4 else (a / 6) % 16

/-- The position of a byte in its stored cell (R338). -/
def laneOf (a : Nat) : Nat :=
  match spadCore a with
  | some _ => spadOff a % 6
  | none => a % 6

/-- The first byte of the stored cell that holds a byte: it names the cell (R136, R342). -/
def cellKey (a : Nat) : Nat := a - laneOf a

/-! ### Correctable errors -/

/-- One more correctable error in a bank (R336): saturating, with SAT and source 2 when it reaches 0xFFFF (R352). -/
def countCE (b : Nat) (s : State) : State :=
  let v := s.ecc.cecnt.getD b 0
  if v = 0xFFFF then s
  else
    let s1 := { s with ecc := { s.ecc with cecnt := s.ecc.cecnt.set b (v + 1) } }
    if v + 1 = 0xFFFF then raiseSrc 2 { s1 with ecc := { s1.ecc with sat := true } } else s1

/-- Enter a CE byte or word in the CE log (R337), with source 1 when the log was empty (R352). -/
def logCE (e : EccEntry) (s : State) : State :=
  if s.ecc.celog.any (fun x => x.addr == e.addr && x.lane == e.lane && x.prog == e.prog) then s
  else if 16 ≤ s.ecc.celog.length then { s with ecc := { s.ecc with ceovf := true } }
  else
    let s1 := { s with ecc := { s.ecc with celog := s.ecc.celog ++ [e] } }
    if s.ecc.celog.isEmpty then raiseSrc 1 s1 else s1

/-- Enter a byte in the UE log (R341), with source 3 when the entry is dropped. -/
def logUE (e : EccEntry) (s : State) : State :=
  if 8 ≤ s.ecc.uelog.length then raiseSrc 3 { s with ecc := { s.ecc with ueovf := true } }
  else { s with ecc := { s.ecc with uelog := s.ecc.uelog ++ [e] } }

/-- A log entry for a stored byte (R338). -/
def byteEntry (a : Nat) (b : StoredByte) (wr : Bool) : EccEntry where
  prog := false
  lane := BitVec.ofNat 3 (laneOf a)
  syn := (byteSyn b).setWidth 6
  wr := wr
  addr := BitVec.ofNat 36 a

/-! ### The borrow window -/

/-- How an access meets a borrowed window: through the redirection of R317, or as the test routine's own explicit M-level
access, which reaches the scratchpad's own cells. -/
inductive Via where
  | normal
  | owner
  deriving DecidableEq, Repr

/-- Is a scratchpad offset inside the active borrow window of its core (R314)? -/
def inWindow (w : Borrow) (off : Nat) : Bool := w.active && decide (off / 1024 = w.base.toNat)

/-- Where a window's byte is read: in the buffer or in the scratchpad (R316, R317). DEDUCED (notes/assumptions/16.md). -/
def windowReadsBuffer (w : Borrow) (via : Via) : Bool :=
  if w.copying then w.back else decide (via = .normal)

/-- The stored byte a read reaches (R316, R317). -/
def rawByte (s : State) (via : Via) (a : Nat) : StoredByte :=
  match spadCore a with
  | some c =>
    let w := (s.cor c).borrow
    if inWindow w (spadOff a) && windowReadsBuffer w via then smGet 0 w.buf (spadOff a % 1024) else smGet 0 s.mem a
  | none => smGet 0 s.mem a

/-- Put a stored byte in the storage behind an address. -/
def putMem (s : State) (a : Nat) (b : StoredByte) : State := { s with mem := smPut 0 s.mem a b }

/-- Put a stored byte in a core's borrow buffer. -/
def putBuf (s : State) (c : CoreId) (off : Nat) (b : StoredByte) : State :=
  s.modCor c fun k => { k with borrow := { k.borrow with buf := smPut 0 k.borrow.buf (off % 1024) b } }

/-- The stored byte a write leaves: in the scratchpad, in the buffer, or in both while a copy runs (R316, R317). -/
def putRaw (s : State) (via : Via) (a : Nat) (b : StoredByte) : State :=
  match spadCore a with
  | some c =>
    let w := (s.cor c).borrow
    let off := spadOff a
    if inWindow w off then
      (if w.copying then putBuf (putMem s a b) c off b
       else if via = .normal then putBuf s c off b
       else putMem s a b)
    else putMem s a b
  | none => putMem s a b

/-! ### Reading and writing bytes -/

/-- Clear every reservation on a stored cell (R136). -/
def clearResv (key : Nat) (s : State) : State :=
  s.mapThreads fun th => if th.resv = some key then { th with resv := none } else th

/-- A read of a byte by a thread, a spill engine or the heel: its class, with a CE byte counted, logged and, in legacy mode
outside the keep store, written back (R332 to R334). -/
def readByte (s : State) (via : Via) (a : Nat) : ByteClass × State :=
  let b := rawByte s via a
  match classify b with
  | .ce d =>
    let wb := s.ecc.legacy && !isKeep a
    let s1 := logCE (byteEntry a b wb) (countCE (bankOf a) s)
    (.ce d, if wb then putRaw s1 via a (encByte d) else s1)
  | k => (k, s)

/-- What a read of several bytes delivers (R332). -/
inductive ReadRes where
  | ok (bs : List Byte)
  | poison
  | ue
  deriving DecidableEq, Repr

/-- Join the class of one more byte to a result: an uncorrectable byte outranks a poisoned one (R332). -/
def ReadRes.add (r : ReadRes) (k : ByteClass) : ReadRes :=
  match r, k with
  | .ue, _ => .ue
  | _, .ue => .ue
  | .poison, _ => .poison
  | _, .poison => .poison
  | .ok bs, .clear => .ok (bs ++ [0])
  | .ok bs, .good d => .ok (bs ++ [d])
  | .ok bs, .ce d => .ok (bs ++ [d])

/-- A read of the bytes at the given addresses, in order (R332, R333). Several correctable bytes of one read enter the CE log in this
order, ascending in every caller (R337; DESIGN CHOICE, notes/assumptions/123.md). -/
def readAddrs (s : State) (via : Via) : List Nat → ReadRes × State
  | as => as.foldl (fun acc a =>
      let r := readByte acc.2 via a
      (acc.1.add r.1, r.2)) (.ok [], s)

/-- n addresses from a. -/
def span (a n : Nat) : List Nat := (List.range n).map (a + ·)

/-- A read of n bytes from a (R332, R333). -/
def readSpan (s : State) (via : Via) (a n : Nat) : ReadRes × State := readAddrs s via (span a n)

/-- A peek of n bytes: corrected data, nothing counted, logged or written (R332). -/
def peekSpan (s : State) (via : Via) (a n : Nat) : ReadRes :=
  (span a n).foldl (fun acc x => acc.add (classify (rawByte s via x))) (.ok [])

/-- Write bytes with fresh codes from a, clearing the reservations on the cells they reach (R330, R136). A reservation is known by its
cell's address, also one taken through a borrow buffer (DESIGN CHOICE, notes/assumptions/105.md). -/
def writeSpan (s : State) (via : Via) (a : Nat) (bs : List Byte) : State :=
  let s1 := (bs.zip (List.range bs.length)).foldl (fun acc e => putRaw acc via (a + e.2) (encByte e.1)) s
  ((span a bs.length).map cellKey).dedup.foldl (fun acc key => clearResv key acc) s1

/-! ### Program memory -/

/-- Where a word address lies (R295). -/
inductive PRegion where
  | local | shared | rom
  deriving DecidableEq, Repr

/-- The region of a word address; none where it is unmapped (R295). -/
def pregion (a : Nat) : Option PRegion :=
  if a < 0x8000 then some .local
  else if 0x10000 ≤ a ∧ a < 0x90000 then some .shared
  else if 0xFF000 ≤ a ∧ a < 0x100000 then some .rom
  else none

/-- A read of a shared-store word: a correctable word is counted, logged, written back in legacy mode, and raises source 6
(R350). The Bool says whether the word is uncorrectable. -/
def readShared (s : State) (a : Nat) : (PWord × Bool) × State :=
  let v := smGet sharedKill s.sprog a
  match classifyWord v with
  | .good w => ((w, false), s)
  | .ue w => ((w, true), s)
  | .ce w syn =>
    let e : EccEntry := { prog := true, lane := 0, syn := syn, wr := s.ecc.legacy, addr := BitVec.ofNat 36 a }
    let s1 := raiseSrc 6 (logCE e (countCE 85 s))
    ((w, false), if s.ecc.legacy then { s1 with sprog := smPut sharedKill s1.sprog a (encShared w) } else s1)

/-- The I-cache line of a core that holds a word address, if one does (R193). -/
def iline (k : Core) (a : Nat) : Option ILine := k.ilines.find? fun l => decide (l.addr = a - a % 8)

/-- Insert a line as the most recently used of its set; a full set loses its least recently used line (R193). The set of a line is its
word address ÷ 8 modulo 256. DESIGN CHOICE (notes/assumptions/113.md). Lines stand
oldest first. -/
def insIline (ls : List ILine) (l : ILine) : List ILine :=
  let set := fun (x : ILine) => decide ((x.addr / 8) % 256 = (l.addr / 8) % 256)
  let others := ls.filter fun x => decide (x.addr ≠ l.addr)
  let mine := others.filter set
  let kept := if 2 ≤ mine.length then (match mine with
    | old :: _ => others.filter fun x => decide (x.addr ≠ old.addr)
    | [] => others) else others
  kept ++ [l]

/-- Fill an I-cache line of 8 words from the shared program store, each with fresh parity (R193, R329, R350). -/
def fillIline (s : State) (c : CoreId) (a : Nat) : State :=
  let base := a - a % 8
  let r := (span base 8).foldl (fun acc x =>
      let v := readShared acc.2 x
      (acc.1 ++ [(encLocal v.1.1, v.1.2)], v.2)) (([] : List (BitVec 16 × Bool)), s)
  r.2.modCor c fun k => { k with ilines := insIline k.ilines { addr := base, words := r.1 } }

/-- What a fetch of a word finds. -/
inductive FetchRes where
  | word (w : PWord)
  | parity
  | unmapped
  deriving DecidableEq, Repr

/-- The I-cache line that serves a word, as the most recently used, after a fill where no line holds it or where the word fails its
parity, which discards the line with no exception (R193, R194). -/
def touchIline (s : State) (c : CoreId) (a : Nat) : State :=
  match iline (s.cor c) a with
  | some l =>
    if localOk (l.words.getD (a % 8) (0, false)).1 then s.modCor c fun k => { k with ilines := insIline k.ilines l }
    else fillIline (s.modCor c fun k => { k with ilines := k.ilines.filter fun x => decide (x.addr ≠ l.addr) }) c a
  | none => fillIline s c a

/-- A fetch of a word by a core (R193, R194, R295, R350): from local RAM with its parity, from the I-cache after a fill
where the core is in normal mode, from the shared store itself in deterministic mode (R220), from the boot ROM. A word that a
deterministic core fetches so is treated as one that a fill reads and delivers: counted and logged, or program parity (R350; DESIGN
CHOICE, notes/assumptions/125.md). -/
def fetchWord (s : State) (c : CoreId) (a : WAddr) : FetchRes × State :=
  match pregion a.toNat with
  | none => (.unmapped, s)
  | some .rom => (.word (Config.bootWord a.toNat), s)
  | some .local =>
    let v := smGet localKill (s.cor c).lprog a.toNat
    (if localOk v then .word (v.extractLsb' 0 14) else .parity, s)
  | some .shared =>
    if (s.cor c).act then
      let r := readShared s a.toNat
      (if r.1.2 then .parity else .word r.1.1, r.2)
    else
      let s1 := touchIline s c a.toNat
      match iline (s1.cor c) a.toNat with
      | some l =>
        let e := l.words.getD (a.toNat % 8) (0, false)
        (if e.2 then .parity else .word (e.1.extractLsb' 0 14), s1)
      | none => (.parity, s1)

end Sys2Proof.Machine
end

