-- ==== Sys2Proof/Machine/Stacks.lean ====
section
/-! DEFINITION. The stacks of a thread: depth and limits, spills and fills, reading and writing the running level's cells
(R198 to R208, R233 to R236). -/

namespace Sys2Proof.Machine

/-- A cause, its subcode and the ADDR value of an exception record (R259, R262). -/
structure Exc where
  cause : BitVec 6
  sub : BitVec 4
  addr : BitVec 36
  deriving DecidableEq, Repr

/-- The two stacks of a level. -/
def Arch.stk (a : Arch) : Level → LevelStacks
  | .T => a.stT
  | .S => a.stS
  | .M => a.stM

/-- Replace the two stacks of a level. -/
def Arch.setStk (a : Arch) (l : Level) (k : LevelStacks) : Arch :=
  match l with
  | .T => { a with stT := k }
  | .S => { a with stS := k }
  | .M => { a with stM := k }

/-- One of the two stacks of a level: the return stack when rs holds. -/
def LevelStacks.get (k : LevelStacks) (rs : Bool) : Stk := if rs then k.rs else k.os

def LevelStacks.set (k : LevelStacks) (rs : Bool) (x : Stk) : LevelStacks :=
  if rs then { k with rs := x } else { k with os := x }

/-- A stack of a thread. -/
def State.stk (s : State) (t : ThreadId) (l : Level) (rs : Bool) : Stk := ((s.thr t).arch.stk l).get rs

/-- Replace a stack of a thread. -/
def State.setStk (s : State) (t : ThreadId) (l : Level) (rs : Bool) (k : Stk) : State :=
  s.modArch t fun a => a.setStk l ((a.stk l).set rs k)

/-- The architectural depth of a stack: (SP − BASE) ÷ 6 + RES (R233). A difference that is negative or no multiple of 6 is divided
rounding down. DESIGN CHOICE (notes/assumptions/78.md). -/
def Stk.depth (k : Stk) : Int := ((k.sp.toNat : Int) - k.base.toNat) / 6 + k.res.length

/-- HI as the tile treats it: never above the scratchpad's size (R235). -/
def Stk.top (k : Stk) : Nat := min k.hi.toNat 0x18000

/-- May a stack stand at a depth: BASE + 6 × depth does not exceed HI (R236)? -/
def Stk.fits (k : Stk) (depth : Int) : Bool := decide ((k.base.toNat : Int) + 6 * depth ≤ k.top)

/-- A cell that a word writes: no byte poisoned, parity good. -/
def PCell.of (v : Cell) : PCell := { val := v, poison := 0, par := 0 }

/-- A cell that a word of class K writes (R83, R200). -/
def PCell.ofK (v : Cell) : PCell := { PCell.of v with isK := true }

/-- The copy of a cell that a word of class A writes: it is no class-K cell (R83, R200). -/
def PCell.fresh (c : PCell) : PCell := { c with isK := false }

/-- Lane j of a bit-per-lane mask of a cell. -/
def laneBit (m : BitVec 6) (j : Nat) : Bool := m.getLsbD j

/-! ### Spills -/

/-- The stored byte a spill writes for lane j of a cell: the poison pattern where the byte's parity fails or the byte is
poisoned, the byte with a fresh code otherwise (R208). -/
def spillByte (c : PCell) (j : Nat) : StoredByte :=
  if laneBit c.par j || laneBit c.poison j then poisonByte else encByte (lane c.val j)

/-- Write one byte of a spill at an offset of the thread's own scratchpad. An offset beyond the scratchpad holds no byte. -/
def putSpill (s : State) (t : ThreadId) (off : Nat) (b : StoredByte) : State :=
  if off < 0x18000 then
    let a := spadBase t.core.val + off
    clearResv (cellKey a) (putRaw s .normal a b)
  else s

/-- Spill the deepest resident cell of a stack: write it at the spill pointer and add 6 to the pointer (R203). -/
def spillOne (t : ThreadId) (l : Level) (rs : Bool) (s : State) : State :=
  let k := s.stk t l rs
  match k.res.getLast? with
  | none => s
  | some c =>
    let s1 := (List.range 6).foldl (fun acc j => putSpill acc t (k.sp.toNat + j) (spillByte c j)) s
    s1.setStk t l rs { k with sp := k.sp + 6, res := k.res.dropLast }

/-- Spill n cells of a stack. -/
def spillMany (t : ThreadId) (l : Level) (rs : Bool) : Nat → State → State
  | 0, s => s
  | n + 1, s => spillMany t l rs n (spillOne t l rs s)

/-- The cells or entries of one kind that a thread has resident, over all its levels (R198). -/
def residents (s : State) (t : ThreadId) (rs : Bool) : Nat :=
  (s.stk t .T rs).res.length + (s.stk t .S rs).res.length + (s.stk t .M rs).res.length

/-- The most cells or entries a thread may have resident (R198, R206). -/
def windowSize (rs : Bool) : Nat := if rs then 24 else 16

/-- One spill that makes room: of a level other than l that has resident cells, or of l (R205). Of several such levels T goes first,
then S, then M. DESIGN CHOICE (notes/assumptions/79.md). -/
def spillForRoom (t : ThreadId) (l : Level) (rs : Bool) (s : State) : State :=
  let has := fun x => decide (x ≠ l) && !(s.stk t x rs).res.isEmpty
  if has .T then spillOne t .T rs s
  else if has .S then spillOne t .S rs s
  else if has .M then spillOne t .M rs s
  else spillOne t l rs s

/-- Spill until n more cells of a stack of level l fit in the resident window (R206). -/
def makeRoom (t : ThreadId) (l : Level) (rs : Bool) (n : Nat) (s : State) : State :=
  (List.range (residents s t rs + n - windowSize rs)).foldl (fun acc _ => spillForRoom t l rs acc) s

/-! ### Fills -/

/-- Read one byte of a fill: its value and whether its poison bit sets (R208). -/
def fillByte (s : State) (t : ThreadId) (off : Nat) : (Byte × Bool) × State :=
  if off < 0x18000 then
    let r := readByte s .normal (spadBase t.core.val + off)
    match r.1 with
    | .clear => ((0, false), r.2)
    | .good d => ((d, false), r.2)
    | .ce d => ((d, false), r.2)
    | .ue => ((0, true), r.2)
    | .poison => ((0, true), r.2)
  else ((Config.beyondByte off, false), s)

/-- Fill one cell of a stack: subtract 6 from the spill pointer and read there (R203, R208). -/
def fillOne (t : ThreadId) (l : Level) (rs : Bool) (s : State) : State :=
  let k := s.stk t l rs
  let sp := k.sp - 6
  let r := (List.range 6).foldl (fun acc j =>
      let b := fillByte acc.2 t (sp.toNat + j)
      (acc.1 ++ [b.1], b.2)) (([] : List (Byte × Bool)), s)
  let mask := (List.range 6).foldl (fun acc j =>
      if (r.1.getD j (0, false)).2 then acc ||| (1#6 <<< j) else acc) (0 : BitVec 6)
  let cell : PCell := { val := bytesCell (r.1.map (·.1)), poison := mask, par := 0 }
  r.2.setStk t l rs { k with sp := sp, res := k.res ++ [cell] }

/-- Fill n cells of a stack. -/
def fillMany (t : ThreadId) (l : Level) (rs : Bool) : Nat → State → State
  | 0, s => s
  | n + 1, s => fillMany t l rs n (fillOne t l rs s)

/-- The storage address behind an effective address of a thread: its own scratchpad's view for the own-core range (R296). -/
def physOf (t : ThreadId) (ea : Nat) : Nat := if ea < 0x18000 then spadBase t.core.val + ea else ea

/-- Do n bytes from a meet m bytes from b? -/
def overlaps (a n b m : Nat) : Bool := decide (a < b + m ∧ b < a + n)

/-- The buffered stores of a thread, oldest first (R124). -/
def storesOf (s : State) (t : ThreadId) : List SbEntry := (s.cor t.core).sb.filter fun e => decide (e.thread = t)

/-- Does a buffered store of the thread touch any of n bytes of storage from a? -/
def storeTouches (s : State) (t : ThreadId) (a n : Nat) : Bool :=
  (storesOf s t).any fun e => overlaps (physOf t e.ea.toNat) e.bytes.length a n

/-- Make the n top cells of a stack resident. None: a buffered store of the thread to the same bytes has still to drain, so
the demand fill waits (R206, R219). -/
def ensure (t : ThreadId) (l : Level) (rs : Bool) (n : Nat) (s : State) : Option State :=
  let k := s.stk t l rs
  let need := n - k.res.length
  if need = 0 then some s
  else if storeTouches s t (spadBase t.core.val + (k.sp.toNat - 6 * need)) (6 * need) then none
  else some (fillMany t l rs need (makeRoom t l rs need s))

/-- The exception of reading cells: parity first, then poison (R208, R215). -/
def readFault (rs : Bool) (cs : List PCell) : Option Exc :=
  if cs.any (fun c => decide (c.par ≠ 0)) then some { cause := 0x0D, sub := if rs then 1 else 0, addr := 0 }
  else if cs.any (fun c => decide (c.poison ≠ 0)) then some { cause := 0x10, sub := 1, addr := 0 }
  else none

/-- What an operand cell that is read for no value raises: parity only (R92, R200, R215). -/
def parityFault (cs : List PCell) : Option Exc :=
  if cs.any (fun c => decide (c.par ≠ 0)) then some { cause := 0x0D, sub := 0, addr := 0 } else none

/-- Replace the n top cells of a stack by other cells, top first, with the spills that keep the window within its size: they take the
deepest cells, those just pushed included where a word pushes more than the window holds (R206). -/
def replaceTop (t : ThreadId) (l : Level) (rs : Bool) (n : Nat) (cs : List PCell) (s : State) : State :=
  let k := s.stk t l rs
  makeRoom t l rs 0 (s.setStk t l rs { k with res := cs ++ k.res.drop n })

/-- The n top cells of a stack, top first, which `ensure` has made resident. -/
def topCells (s : State) (t : ThreadId) (l : Level) (rs : Bool) (n : Nat) : List PCell := (s.stk t l rs).res.take n

/-- Empty both stacks of a level (R236). -/
def Arch.emptyLevel (a : Arch) (l : Level) : Arch := a.setStk l (a.stk l).emptied

/-- The number of a level (R228). -/
def levelNum : Level → Nat
  | .T => 0
  | .S => 1
  | .M => 2

/-- The level code of R228. -/
def levelBits (l : Level) : BitVec 2 := BitVec.ofNat 2 (levelNum l)

/-- The level of a code; none for 0b11 (R228). -/
def levelOf (b : BitVec 2) : Option Level :=
  match b.toNat with
  | 0 => some .T
  | 1 => some .S
  | 2 => some .M
  | _ => none

/-- The gate linkage of a level; level T has none (R243). -/
def Arch.glink (a : Arch) : Level → GLink
  | .T => .clear
  | .S => a.glS
  | .M => a.glM

def Arch.setGlink (a : Arch) (l : Level) (g : GLink) : Arch :=
  match l with
  | .T => a
  | .S => { a with glS := g }
  | .M => { a with glM := g }

/-- Empty the stacks of every level above l (R236). -/
def Arch.emptyAbove (a : Arch) (l : Level) : Arch :=
  match l with
  | .M => a
  | .S => a.emptyLevel .M
  | .T => (a.emptyLevel .M).emptyLevel .S

/-- Empty the stacks and clear the linkage of every level above l (R236, R243, R244). -/
def Arch.dropAbove (a : Arch) (l : Level) : Arch :=
  match l with
  | .M => a
  | .S => (a.emptyLevel .M).setGlink .M .clear
  | .T => (((a.emptyLevel .M).setGlink .M .clear).emptyLevel .S).setGlink .S .clear

end Sys2Proof.Machine
end

