-- ==== Sys2Proof/Machine/Items.lean ====
section
/-! DEFINITION. Time values, and the items of the fetch unit and the heel: queues, bookings, tags, losses and the end of a
visit (chapters 1, 2, 6 and 12). -/

namespace Sys2Proof.Machine

/-! ### Time -/

/-- The exact value of a double in units of 2⁻¹⁶ ns (R47). -/
def Dbl.val (d : Dbl) : Int := d.hi.toInt * secondUnits + d.lo.toNat

/-- The normal form of a value, SEC cut to its low 48 bits (R49). -/
def dblOf (v : Int) : Dbl :=
  { hi := BitVec.ofInt 48 (v.fdiv secondUnits), lo := BitVec.ofInt 48 (v.fmod secondUnits) }

/-- Does a value's SEC lie outside the signed range of a cell (R49)? -/
def secOutside (v : Int) : Bool := outsideCell (v.fdiv secondUnits)

/-- The timebase in units of 2⁻¹⁶ ns, its hidden bits dropped (R160). -/
def State.now (s : State) : Nat := s.tk.tb / 2 ^ 24

/-- A core's copy of the timebase: what it was in one of the two core cycles before (R167). -/
def State.copyNow (s : State) (c : CoreId) : Nat :=
  if Config.copyLag s.epoch s.fetch.cycle c.val then s.tk.prev2 else s.tk.prev1

/-- A limit that never comes: bit 47 of its high cell is 1 (R170). -/
def Dbl.never (d : Dbl) : Bool := d.hi.getLsbD 47

/-- Has a wait limit been reached by the core's copy (R170)? -/
def limitReached (s : State) (c : CoreId) (d : Dbl) : Bool := !d.never && decide (d.val ≤ (s.copyNow c : Int))

/-- A count of core cycles in units of 2⁻¹⁶ ns at the running core clock, rounded down (R21).
DEDUCED (notes/assumptions/18.md). -/
def ccUnits (s : State) (n : Nat) : Nat := n * 65536 * clkDiv s.profile.clk / 3

/-! ### Items -/

def findItem (s : State) (id : Nat) : Option Item := s.fetch.items.find? fun it => decide (it.id = id)

def modItem (s : State) (id : Nat) (f : Item → Item) : State :=
  { s with fetch := { s.fetch with items := s.fetch.items.map fun it => if it.id = id then f it else it } }

def dropItem (s : State) (id : Nat) : State :=
  { s with fetch := { s.fetch with items := s.fetch.items.filter fun it => decide (it.id ≠ id) } }

/-- Does an item occupy a queue entry (R362)? -/
def Item.inQueue (it : Item) : Bool :=
  match it.place with
  | .queued => true
  | .slot _ => true
  | .hole => true
  | _ => false

/-- QCOUNT (R362, R393). -/
def qcount (s : State) : Nat := (s.fetch.items.filter Item.inQueue).length

/-- Is an item in flight (R14, R374)? -/
def Item.inFlight (it : Item) : Bool := it.taken && decide (it.place ≠ .hole)

/-- INFLIGHT (R374). -/
def inflight (s : State) : Nat := (s.fetch.items.filter Item.inFlight).length

/-- WM as it acts (R393). -/
def watermark (s : State) : Nat := min s.fetch.wm.toNat 4096

/-- Raise source 13 when QCOUNT went from below WM to WM or above (R393). -/
def noteQueue (before after : State) : State :=
  if qcount before < watermark before ∧ watermark after ≤ qcount after then raiseSrc 13 after else after

/-- A flow's entry (R358). -/
def State.flow (s : State) (f : BitVec 16) : Flow := smGet Flow.boot s.heel.flows f.toNat
def State.setFlow (s : State) (f : BitVec 16) (x : Flow) : State :=
  { s with heel := { s.heel with flows := smPut Flow.boot s.heel.flows f.toNat x } }

/-- A node's entry (R354). -/
def State.nodeOf (s : State) (k : BitVec 8) : Node := smGet Node.boot s.fetch.nodes k.toNat

/-! ### Bookings (R368 to R372) -/

/-- Move every slot of a ledger down by one, slot 1 being added into slot 0 (R372). -/
def ledgerShift (l : List Nat) : List Nat :=
  match l with
  | a :: b :: rest => (a + b) :: rest ++ [0]
  | x => x

/-- One step of β₀ (R372). -/
def ledgerStep (f : Fetch) : Fetch :=
  { f with ledgers := f.ledgers.map ledgerShift, transfer := ledgerShift f.transfer, beta := f.beta + 1 }

/-- The ledgers at β₀ = ⌊cycle ÷ 16⌋: every step that is due (R368, R372). -/
def ledgerCatchUp (f : Fetch) : Fetch :=
  let due := f.cycle / 16 - f.beta
  { (List.range (min due 32)).foldl (fun acc _ => ledgerStep acc) f with beta := f.beta + due }

/-- The ledger slot at which an absolute 16-cycle slot stands now (R368). -/
def ledgerSlot (f : Fetch) (abs : Nat) : Nat := min 31 (abs - f.beta)

/-- Add to a slot of a ledger. -/
def ledgerAdd (l : List Nat) (j n : Nat) : List Nat := l.set j (l.getD j 0 + n)
/-- Take from a slot of a ledger. -/
def ledgerSub (l : List Nat) (j n : Nat) : List Nat := l.set j (l.getD j 0 - n)

/-- Put a booking on its ledger. -/
def bookOn (f : Fetch) (b : Booking) : Fetch :=
  let j := ledgerSlot f b.slot
  match b.core with
  | some c => { f with ledgers := f.ledgers.set c.val (ledgerAdd (f.ledgers.getD c.val []) j b.amount) }
  | none => { f with transfer := ledgerAdd f.transfer j b.amount }

/-- Take a booking off its ledger. -/
def bookOff (f : Fetch) (b : Booking) : Fetch :=
  let j := ledgerSlot f b.slot
  match b.core with
  | some c => { f with ledgers := f.ledgers.set c.val (ledgerSub (f.ledgers.getD c.val []) j b.amount) }
  | none => { f with transfer := ledgerSub f.transfer j b.amount }

/-- Remove the booking of an item's first visit (R372). -/
def dropW (s : State) (it : Item) : State :=
  match it.bookW with
  | some b => { modItem s it.id (fun x => { x with bookW := none }) with
      fetch := bookOff (modItem s it.id (fun x => { x with bookW := none })).fetch b }
  | none => s

/-- Remove the booking of an item's later visits (R372). -/
def dropP (s : State) (it : Item) : State :=
  match it.bookP with
  | some b => { modItem s it.id (fun x => { x with bookP := none }) with
      fetch := bookOff (modItem s it.id (fun x => { x with bookP := none })).fetch b }
  | none => s

/-- Remove every booking of an item, and let it give back a token (R371, R372). -/
def dropBookings (s : State) (it : Item) : State :=
  modItem (dropP (dropW s it) it) it.id fun x => { x with token := none }

/-! ### Tags (R380, R381, R188) -/

/-- Is a tag held by, or granted to, some item? -/
def tagBusy (s : State) (tag : BitVec 32) : Bool :=
  s.fetch.items.any fun it => decide (it.tag = some (tag, .held) ∨ it.tag = some (tag, .granted))

/-- The item accepted first among those that wait or stand lodged for a tag (R380). -/
def tagNext (s : State) (tag : BitVec 32) : Option Nat :=
  let reqs := s.fetch.items.filter fun it => decide (it.tag = some (tag, .waiting) ∨ it.tag = some (tag, .lodged))
  (reqs.map (·.id)).min?

/-- Grant a free tag to the next item that requests it (R380). -/
def grantTag (s : State) (tag : BitVec 32) : State :=
  if tagBusy s tag then s
  else match tagNext s tag with
    | some id => modItem s id fun it => { it with tag := some (tag, .granted) }
    | none => s

/-- End an item's holding or request of a tag, and pass the turn on (R381, R190). -/
def dropTag (s : State) (id : Nat) : State :=
  match findItem s id with
  | some it =>
    match it.tag with
    | some (tag, _) => grantTag (modItem s id fun x => { x with tag := none }) tag
    | none => s
  | none => s

/-! ### Loss, replay and the end of a visit -/

/-- Enter a loss (R391). -/
def logLoss (e : LossEntry) (s : State) : State :=
  if 32 ≤ s.heel.losslog.length then { s with heel := { s.heel with lossovf := true } }
  else
    let s1 := { s with heel := { s.heel with losslog := s.heel.losslog ++ [e] } }
    if s.heel.losslog.isEmpty then raiseSrc 8 s1 else s1

/-- ACTION codes of a release record (R377). -/
def actForward : BitVec 2 := 0
def actDrop : BitVec 2 := 1
def actCancelled : BitVec 2 := 2
def actLost : BitVec 2 := 3

/-- An item becomes ready for release with an action and a port context: its bookings leave, its tag passes on, and only
FORWARD keeps the edits (R18, R372, R381). -/
def makeReady (s : State) (id : Nat) (action : BitVec 2) (port : BitVec 10) : State :=
  match findItem s id with
  | none => s
  | some it =>
    let s1 := dropTag (dropBookings s it) id
    modItem s1 id fun x => { x with
      place := .ready
      action := action
      port := port
      ordered := none
      readyCyc := s.fetch.cycle
      edits := []
      kept := if action = actForward then x.kept else [] }

/-- Does the order condition of R19 hold for an item: every earlier sequence of its ordered flow has left, and the flow awaits no DRAINED
token (R386)? -/
def inOrder (s : State) (it : Item) : Bool :=
  let f := s.flow it.flow
  decide (f.state ≠ .arriving) && (f.free || decide (it.seq = f.nextr))

/-- The ingress port context of a descriptor (R9). -/
def Item.inPort (it : Item) : BitVec 10 := it.desc1.extractLsb' 38 10

/-- A thread's current item, if it holds one. -/
def currentItem (s : State) (t : ThreadId) : Option Item := (s.thr t).cur.bind (findItem s)

/-- A cancel had marked the item: it becomes ready as CANCELLED (R382). A launch time that it has holds its record all the same
(R378). -/
def readyCancelled (s : State) (it : Item) : State := makeReady s it.id actCancelled it.inPort

/-- The current item of a thread becomes LOST, with its loss entry (R114, R389, R391). -/
def readyLost (s : State) (it : Item) (cause : BitVec 2) (c : CoreId) : State :=
  logLoss { cause := cause, core := BitVec.ofNat 4 c.val, flow := it.flow, seq := it.seq }
    (makeReady s it.id actLost it.inPort)

/-- The current item of a thread is replayed: queued again at its node with the eligibility it had, its visit's edits
discarded, its tag kept as a lodged grant (R389). -/
def replay (s : State) (it : Item) : State :=
  noteQueue s <| modItem s it.id fun x => { x with
    place := .queued
    prio := none
    edits := []
    dest := .none
    tag := match x.tag with
      | some (g, .held) => some (g, .granted)
      | some (g, .waiting) => some (g, .lodged)
      | o => o }

/-- Does a byte lie in the frame window (R15)? -/
def inFrame (a : Nat) : Bool := decide (0x30000000 ≤ a ∧ a < 0x30004000)

/-- A thread's frame-window stores that have not drained have lost their visit, as its edits have; they drain without effect (R16,
R114). -/
def strayFrameStores (t : ThreadId) (s : State) : State :=
  s.modCor t.core fun k => { k with
    sb := k.sb.map fun e => if e.thread = t ∧ inFrame e.ea.toNat then { e with stray := true } else e }

/-- How a current item is handled when its thread stops short of the visit's end: by KILL (no replay), a thread reset, a
fence or a core reset (R114, R26, R389, R390). A marked item becomes CANCELLED (R382). -/
def abandonItem (s0 : State) (t : ThreadId) (cause : BitVec 2) (mayReplay : Bool) : State :=
  match currentItem s0 t with
  | none => s0
  | some it =>
    let s := strayFrameStores t s0
    let s1 := if it.marked then readyCancelled s it
      else if mayReplay && (s.nodeOf it.node).replay then replay s it
      else readyLost s it cause t.core
    s1.modThr t fun th => { th with cur := none }

/-- An item in a thread's fetch slot returns to its queue with its eligibility (R114, R389). -/
def returnSlot (s : State) (t : ThreadId) : State :=
  match (s.thr t).slot with
  | none => s
  | some id => (modItem s id fun x => { x with place := .queued }).modThr t fun th => { th with slot := none }

/-- Move one item's share of a core that leaves admission: a booking that awaits the first visit goes to the transfer
ledger; a token of a deterministic core is void, and its figures are booked on the transfer ledger, at the slots
of acceptance as they have moved since (R371, R372; DESIGN CHOICE, notes/assumptions/118.md). -/
def leaveOne (c : CoreId) (s : State) (it : Item) : State :=
  if it.token = some c then
    let w : Booking := { core := none, slot := it.slotW, amount := it.amtW }
    let p : Booking := { core := none, slot := it.slotP, amount := it.amtP }
    let s1 := modItem s it.id fun x => { x with
      token := none, firstCore := none, bookW := if x.firstDone then none else some w, bookP := some p }
    let f := if it.firstDone then s1.fetch else bookOn s1.fetch w
    { s1 with fetch := if it.bookP.isSome then f else bookOn f p }
  else match it.bookW with
    | some b =>
      if b.core = some c then
        let b' := { b with core := none }
        let s1 := modItem s it.id fun x => { x with bookW := some b', firstCore := none }
        { s1 with fetch := bookOn (bookOff s1.fetch b) b' }
      else s
    | none => s

/-- A core leaves admission at a fence or a core reset (R371, R372, R389, R390). -/
def leaveAdmission (s : State) (c : CoreId) : State := s.fetch.items.foldl (leaveOne c) s

end Sys2Proof.Machine
end

