-- ==== Sys2Proof/Machine/Seq.lean ====
section
/-! DEFINITION. The queues of the helper classes and of the customer port (R395, R418), and sequence recovery: the evaluation of
a frame, pending updates and the requests that wait for them (R413 to R415). -/

namespace Sys2Proof.Machine

/-! ### The queues of the helper classes (R395) -/

/-- The instances of a class that a request occupies while it runs: 4 for checksums, 2 for crypto. The other classes accept a request
in every cycle. -/
def instancesOf (cls : Nat) : Nat := if cls = 0 then 4 else if cls = 1 then 2 else 0

/-- Is a request one of a deterministic core? -/
def HelpReq.det (s : State) (r : HelpReq) : Bool := (s.cor r.thread.core).act

/-- The lowest idle instance that a request may take: with DETRES the highest instance serves the deterministic requests, and
nothing else does. -/
def idleInstance (s : State) (r : HelpReq) : Option Nat :=
  (List.range (instancesOf r.cls)).find? fun i =>
    (!s.help.detres || decide (r.det s = decide (i + 1 = instancesOf r.cls))) &&
      !(s.help.reqs.any fun q => decide (q.cls = r.cls ∧ q.inst = some i))

/-- Of some requests the one that stands first: a deterministic one before the others, and the oldest of its kind. -/
def firstReq (s : State) (rs : List HelpReq) : Option HelpReq := (rs.find? fun r => r.det s) <|> rs.head?

/-- Do the helpers serve a thread's request now: no debug halt freezes them, or it is that of the word a debugger steps (R402, R464)? -/
def servesNow (s : State) (t : ThreadId) : Bool :=
  !s.frozen || (s.dbg.stepping && decide (s.dbg.sel.toNat = t.val))

/-- The first waiting request of a class that finds an instance takes it. -/
def takeInstance (cls : Nat) (s : State) : State :=
  match firstReq s (s.help.reqs.filter fun r =>
      decide (r.cls = cls ∧ r.inst = none) && servesNow s r.thread && (idleInstance s r).isSome) with
  | none => s
  | some r => { s with help := { s.help with
      reqs := s.help.reqs.map fun q => if q = r then { q with inst := idleInstance s r } else q } }

/-- Every idle instance of a class that may take a waiting request takes one. -/
def serveClass (cls : Nat) (s : State) : State := (List.range (instancesOf cls)).foldl (fun acc _ => takeInstance cls acc) s

/-- A thread's request joins the queue of a class. -/
def joinClass (t : ThreadId) (cls : Nat) (s : State) : State :=
  serveClass cls { s with help := { s.help with
    reqs := (s.help.reqs.filter fun r => decide (r.thread ≠ t)) ++ [{ thread := t, cls := cls, inst := none }] } }

/-- Does a thread's request wait for an instance of its class? -/
def queuedFor (s : State) (t : ThreadId) (cls : Nat) : Bool :=
  s.help.reqs.any fun r => decide (r.thread = t ∧ r.cls = cls ∧ r.inst = none) && decide (instancesOf cls ≠ 0)

/-- The age of a thread's request among the others: how many are older. -/
def reqAge (s : State) (t : ThreadId) : Nat := s.help.reqs.findIdx fun r => decide (r.thread = t)

/-! ### The customer port (R418) -/

/-- The request of a thread that waits for the port. -/
def custWaiting (s : State) (t : ThreadId) : Option CustReq :=
  match (s.thr t).pend with
  | .cust q .waiting => some q
  | _ => none

/-- A free port offers the request that stands first. -/
def custOffer (s : State) : State :=
  match s.ports.chReq, firstReq s (s.help.reqs.filter fun r =>
      decide (r.cls = 4) && servesNow s r.thread && (custWaiting s r.thread).isSome) with
  | none, some r => match custWaiting s r.thread with
    | some q => { s.modThr r.thread fun th => { th with pend := .cust q .offered } with ports := { s.ports with chReq := some q } }
    | none => s
  | _, _ => s

/-- The cycles within which the customer logic has to answer: 0 in HELP.CTL.CHTO acts as 4,095. -/
def custLimit (h : Helpers) : Nat := if h.chto = 0 then 4095 else h.chto.toNat

/-- The thread that a CH_ID names (R417). -/
def custThreadOf (id : BitVec 8) : ThreadId := ⟨id.toNat % 128, Nat.mod_lt _ (by decide)⟩

/-- The request at the port is accepted, and the next one is offered. The word of a request that has been discarded in the meantime
is reported so. The limit is CHTO as it stands at the acceptance (R418; DESIGN CHOICE, notes/assumptions/127.md). -/
def custAccept (s : State) : State :=
  match s.ports.chReq with
  | none => s
  | some q =>
    let t := custThreadOf q.id
    let s1 := if (s.thr t).pend = .cust q .offered
      then s.modThr t fun th => { th with pend := .cust q (.accepted (custLimit s.help)) }
      else { s with ports := { s.ports with chDone := s.ports.chDone ++ [(q.id, false)] } }
    custOffer { s1 with ports := { s1.ports with chReq := none } }

/-! ### Sequence recovery -/

/-- The mask of a history of n bits. -/
def histMask (n : Nat) : Nat := 2 ^ n - 1

/-- A verdict (R414). -/
def verdict (pass : Bool) (cls : Nat) (to' : Bool) (lost : Nat) : Cell :=
  BitVec.ofBool pass ++ BitVec.ofNat 3 cls ++ BitVec.ofBool to' ++ 0#36 ++ BitVec.ofNat 7 lost

/-- Zero bits among HIST[hi − 1 : lo]. -/
def zeroBits (hist lo hi : Nat) : Nat := ((List.range hi).filter fun i => decide (lo ≤ i) && !hist.testBit i).length

/-- The evaluation of R413 once the timeout has been looked at. -/
def seqJudge (x : Stream) (sn : BitVec 16) (now : Nat) : Stream × Cell :=
  let n := x.hlenm1.toNat + 1
  let d := (sn - x.recseq).toInt
  let h := x.hist.toNat
  if (n : Int) < d ∨ d ≤ -(n : Int) then (x, verdict false 4 false 0)
  else if d ≤ 0 then
    (if h.testBit (-d).toNat then (x, verdict false 3 false 0)
     else ({ x with hist := BitVec.ofNat 64 (h ||| 2 ^ (-d).toNat), last := now }, verdict true 2 false 0))
  else
    let k := d.toNat
    ({ x with hist := BitVec.ofNat 64 (((h <<< k) ||| 1) &&& histMask n), recseq := sn, last := now },
      verdict true (if k = 1 then 0 else 1) false (zeroBits h (n - k) n))

/-- SEQREC's evaluation of a frame that reaches the helper at a time (R413): the stream's new state and the verdict. -/
def seqEval (x : Stream) (sn : BitVec 16) (now : Nat) : Stream × Cell :=
  let late := decide (x.timeout ≠ 0 ∧ x.last + x.timeout.toNat * 2 ^ 36 ≤ now)
  if x.en = false then (x, verdict true 6 false 0)
  else if x.takeany || late then
    ({ x with takeany := false, recseq := sn, hist := BitVec.ofNat 64 (histMask (x.hlenm1.toNat + 1)), last := now },
      verdict true 5 late 0)
  else seqJudge x sn now

/-- A stream's committed state. -/
def Helpers.stream (h : Helpers) (st : BitVec 12) : Stream := smGet Stream.boot h.streams st.toNat
def Helpers.setStream (h : Helpers) (st : BitVec 12) (x : Stream) : Helpers :=
  { h with streams := smPut Stream.boot h.streams st.toNat x }

/-- Has a stream a pending update (R415)? -/
def Helpers.seqBusy (h : Helpers) (st : BitVec 12) : Bool := h.seqPend.any fun p => decide (p.stream = st)

/-- A write of SEQ.CFG: the stream's fields, TAKEANY and HIST (R415). -/
def streamConfig (v : Cell) (x : Stream) : Stream :=
  { x with en := v.getLsbD 47, hlenm1 := v.extractLsb' 12 6, timeout := v.extractLsb' 0 12, takeany := true, hist := 0 }

/-- Apply the writes of SEQ.CFG that waited for a pending update of a stream (R415). -/
def applyCfgWait (st : BitVec 12) (h : Helpers) : Helpers :=
  if h.seqBusy st then h
  else (h.cfgWait.filter fun w => decide (w.1 = st)).foldl
    (fun acc w => acc.setStream st (streamConfig w.2 (acc.stream st)))
    { h with cfgWait := h.cfgWait.filter fun w => decide (w.1 ≠ st) }

/-- The request a thread's SEQREC made: stream, sequence, and the timebase when it reached the helper. -/
def seqAsk (s : State) (t : ThreadId) : Option (BitVec 12 × BitVec 16 × Int) :=
  match (s.thr t).pend with
  | .helper .seqrec (st :: sn :: hi :: lo :: _) =>
    some (st.extractLsb' 0 12, sn.extractLsb' 0 16, ({ hi := hi, lo := lo } : Dbl).val)
  | _ => none

/-- The stream that a thread's SEQREC or SEQRST in flight names. -/
def seqStream (s : State) (t : ThreadId) : Option (BitVec 12) :=
  match (s.thr t).pend with
  | .helper .seqrec (st :: _) => some (st.extractLsb' 0 12)
  | .helper .seqrst (st :: _) => some (st.extractLsb' 0 12)
  | _ => none

/-- Does a thread's request for a stream still wait to be served? -/
def seqWaits (s : State) (st : BitVec 12) (t : ThreadId) : Bool :=
  servesNow s t && decide (seqStream s t = some st) && !(s.help.seqPend.any fun p => decide (p.thread = t))

/-- Does the request of one thread stand ahead of another's: deterministic cores first, then the older (R395)?
DEDUCED (notes/assumptions/33.md). -/
def seqAhead (s : State) (a b : ThreadId) : Bool :=
  if (s.cor a.core).act = (s.cor b.core).act then decide (reqAge s a < reqAge s b) else (s.cor a.core).act

/-- The request a stream serves next. -/
def seqNext (s : State) (st : BitVec 12) : Option ThreadId :=
  (threadIds.filter (seqWaits s st)).foldl (fun acc t => match acc with
    | none => some t
    | some b => if seqAhead s t b then some t else some b) none

/-- Evaluate the next waiting request of a stream with no pending update, and hold its new state pending; a SEQRST that stands first
holds the others back until it retires (R415). -/
def seqServe (st : BitVec 12) (s : State) : State :=
  if s.help.seqBusy st then s
  else match seqNext s st with
    | none => s
    | some t => match seqAsk s t with
      | none => s
      | some a =>
        let r := seqEval (s.help.stream st) a.2.1 a.2.2.toNat
        { s with help := { s.help with
            seqPend := s.help.seqPend ++ [{ thread := t, stream := st, new := r.1, verdict := r.2 }] } }

/-- A thread's pending update leaves: committed, or dropped with the word that made it (R415). -/
def seqLeave (t : ThreadId) (commit : Bool) (h : Helpers) : Helpers :=
  (h.seqPend.filter fun p => decide (p.thread = t)).foldl
    (fun acc p => applyCfgWait p.stream (if commit then acc.setStream p.stream p.new else acc))
    { h with seqPend := h.seqPend.filter fun p => decide (p.thread ≠ t) }

/-- The streams a thread has a pending update for. -/
def seqStreams (s : State) (t : ThreadId) : List (BitVec 12) :=
  (s.help.seqPend.filter fun p => decide (p.thread = t)).map (·.stream)

/-- A thread's helper word is discarded or retires: its pending update leaves and the requests that waited for it go on. -/
def seqEnd (t : ThreadId) (commit : Bool) (s : State) : State :=
  let s1 := (s.modThr t fun th => { th with pend := .none })
  (seqStreams s t).foldl (fun acc st => seqServe st acc) { s1 with help := seqLeave t commit s.help }

/-- A request has left the helpers: its instance is free, and the next ones of its class and of its stream go on (R395, R415). -/
def leaveHelp (t : ThreadId) (st : Option (BitVec 12)) (s : State) : State :=
  let s1 := { s with help := { s.help with reqs := s.help.reqs.filter fun r => decide (r.thread ≠ t) } }
  let s2 := serveClass 1 (serveClass 0 s1)
  st.elim s2 fun x => seqServe x s2

/-- The helpers go on after a debug halt: every request that waited for what the halt has made free is served (R402, R462). -/
def helpersGo (s : State) : State :=
  let s1 := custOffer (serveClass 1 (serveClass 0 s))
  (threadIds.filterMap (seqStream s1)).foldl (fun acc st => seqServe st acc) s1

/-- A thread's customer word is given up: a request that has been accepted is reported, one that stands at the port stays there, and
one that still waits is withdrawn (R418). -/
def custDiscard (t : ThreadId) (q : CustReq) (st : CustStage) (s : State) : State :=
  let s1 := { s with help := { s.help with reqs := s.help.reqs.filter fun r => decide (r.thread ≠ t) } }
  match st with
  | .accepted _ => { s1 with ports := { s1.ports with chDone := s1.ports.chDone ++ [(q.id, false)] } }
  | _ => s1

end Sys2Proof.Machine
end

