-- ==== Sys2Proof/Machine/Ops.lean ====
section
/-! DEFINITION. The operations every word and event shares: when a thread may issue, how a word retires, taking an
exception and returning from one, the machine check and the fence, the debug halt, and the ends of waits. -/

namespace Sys2Proof.Machine

/-! ### When a thread issues -/


/-- Is a reset held by its pin (R483)? -/
def State.resetHeld (s : State) : Bool :=
  match s.boot with
  | .held _ => true
  | _ => false

/-- Do the core clock's counters run: the uncore is not at rest, or its level is emulated (R458)? -/
def uncoreRuns (s : State) : Bool := decide (s.pwr.rest = .run) || s.emulates

/-- Is a core in service: enabled, not fenced, at Run with no exit in progress, and not in a core reset that waits for its
OWNER_RESET_ACK (R285, R426, R442, R484)? -/
def coreUp (s : State) (c : CoreId) : Bool :=
  let k := s.cor c
  k.enabled && !k.fenced && decide (k.rest = .run) && !k.waking && k.inReset.isNone

/-- The level whose rights a word's checks use: M for a word injected with ML (R465). -/
def rightsLevel (s : State) (t : ThreadId) : Level :=
  if (s.thr t).inj = some true then .M else (s.thr t).arch.level

/-- The value of a predicate; p0 is always true (R54, R55). -/
def Arch.pred (a : Arch) (k : BitVec 2) : Bool :=
  match k.toNat with
  | 0 => true
  | 1 => a.p1
  | 2 => a.p2
  | _ => a.p3

/-- Set a predicate; no code writes p0 (R69). -/
def Arch.setPred (a : Arch) (k : BitVec 2) (b : Bool) : Arch :=
  match k.toNat with
  | 0 => a
  | 1 => { a with p1 := b }
  | 2 => { a with p2 := b }
  | _ => { a with p3 := b }

/-- A predicate as the guards read before a drain have it. -/
def OldPred.pred (o : OldPred) (k : BitVec 2) : Bool :=
  match k.toNat with
  | 0 => true
  | 1 => o.p1
  | 2 => o.p2
  | _ => o.p3

/-- What an older word writes into a predicate reaches those guards through the bypass (R201). -/
def OldPred.setPred (o : OldPred) (k : BitVec 2) (b : Bool) : OldPred :=
  match k.toNat with
  | 0 => o
  | 1 => { o with p1 := b }
  | 2 => { o with p2 := b }
  | _ => { o with p3 := b }

/-- One of the words whose guards were read before a drain has retired. -/
def oldPredsNext : List OldPred → List OldPred
  | [] => []
  | o :: rest => if o.left ≤ 1 then rest else { o with left := o.left - 1 } :: rest

/-- A predicate as the thread's next word finds it: its guard may have been read before a store to THR.PRED drained (R201, R226). An
injected word's guard has not. DEDUCED (notes/assumptions/140.md). -/
def Thread.guardPred (th : Thread) (k : BitVec 2) : Bool :=
  match th.inj, th.oldPreds with
  | none, o :: _ => o.pred k
  | _, _ => th.arch.pred k

/-! ### The running level's stacks -/

def curLevel (s : State) (t : ThreadId) : Level := (s.thr t).arch.level

/-- Architectural depth of the running level's operand stack (rs = false) or return stack. -/
def curDepth (s : State) (t : ThreadId) (rs : Bool) : Int := (s.stk t (curLevel s t) rs).depth

/-- Make the n top cells of the running level resident; none while a buffered store has to drain first. -/
def ensureCur (t : ThreadId) (rs : Bool) (n : Nat) (s : State) : Option State := ensure t (curLevel s t) rs n s

/-- The n top cells of the running level, top first. -/
def curTop (s : State) (t : ThreadId) (rs : Bool) (n : Nat) : List PCell := topCells s t (curLevel s t) rs n

/-- Pop n resident cells of the running level and push others, top first. -/
def curReplace (t : ThreadId) (rs : Bool) (n : Nat) (cs : List PCell) (s : State) : State :=
  replaceTop t (curLevel s t) rs n cs s

/-- Pop n operand cells and push values, top first. -/
def popPush (t : ThreadId) (n : Nat) (vs : List Cell) (s : State) : State := curReplace t false n (vs.map PCell.of) s

/-- An ADDR entry (R89). -/
def addrEntry (a : WAddr) : Cell := 1#2 ++ 0#26 ++ a

/-- May n more entries be pushed on the running level's return stack (R236)? -/
def rsRoom (s : State) (t : ThreadId) (n : Nat) : Bool :=
  let k := s.stk t (curLevel s t) true
  k.fits (k.depth + n)

/-- The return-stack fault OVER (R91). -/
def excOver : Exc := { cause := 8, sub := 0, addr := 0 }

/-! ### Discarding what is in flight -/

/-- THR.STATE.PARK (R228): a CAS6 parks its thread once the unit has stalled the read (R141). -/
def parkCode : Pend → BitVec 3
  | .waitt _ => 1
  | .wfe _ => 2
  | .getwork _ => 3
  | .tag _ _ => 4
  | .cas6 _ (.taken _ true) => 5
  | .rom (.called _) => 2
  | _ => 0

/-- The requests of a thread at the fabric lose their word (R212). DEDUCED (notes/assumptions/20.md). -/
def orphanFab (t : ThreadId) (f : Fab) : Fab :=
  { f with out := f.out.map fun r =>
      if r.use = .load t ∨ r.use = .block t ∨ r.use = .rom t then { r with use := .orphan } else r }

/-- The keep-store writes of a thread lose their word or store; they are performed all the same (R322). -/
def orphanKeep (t : ThreadId) (k : KeepCtl) : KeepCtl :=
  { k with todo := k.todo.map fun j => if j.owner = .thread t then { j with owner := .orphan } else j }

/-- A parked TAG's request stays lodged in its place (R188). -/
def lodgeTag (s : State) (t : ThreadId) : State :=
  match currentItem s t with
  | some it => modItem s it.id fun x => match x.tag with
      | some (g, .waiting) => { x with tag := some (g, .lodged) }
      | _ => x
  | none => s

/-- A thread's CAS6 request leaves the semaphore port, where it still stands or waits there. -/
def clearSemReq (t : ThreadId) (p : Ports) : Ports := { p with semReq := p.semReq.filter fun r => decide (r.thread ≠ t) }

/-- A thread's CAS6 request is withdrawn: SEM_WDR for it (R143, R144, R480). -/
def withdrawCas6 (t : ThreadId) (s : State) : State :=
  let p := clearSemReq t s.ports
  { s with ports := { p with semWdr := p.semWdr ++ [t] } }

/-- Withdraw or abandon whatever word the thread has in flight; its operands stay on the stack (R143, R156, R177, R188,
R212, R399, R418). -/
def discardPend (t : ThreadId) (s : State) : State :=
  let s1 : State := match (s.thr t).pend with
    | .tag _ _ => lodgeTag s t
    | .cas6 _ _ => withdrawCas6 t s
    | .load _ _ _ => { s with fab := orphanFab t s.fab }
    | .rom _ => { s with fab := orphanFab t s.fab }
    | .block _ => { s with fab := orphanFab t s.fab, ks := orphanKeep t s.ks }
    | .helper _ _ => leaveHelp t (seqStream s t) (seqEnd t false s)
    | .cust q st => custDiscard t q st s
    | _ => s
  s1.modThr t fun th => { th with pend := .none, inj := none, robPar := false, oldPreds := [] }

/-- A word in flight does not retire: it is given up as a discard gives it up, and it is still known whether it was injected. -/
def gaveUp (t : ThreadId) (s : State) : State :=
  (discardPend t s).modThr t fun th => { th with inj := (s.thr t).inj }

/-! ### The debug halt -/

/-- Clear every reservation (R136, R460). -/
def clearAllResv (s : State) : State := s.mapThreads fun th => { th with resv := none }

/-- A thread is selected: brought to an instruction boundary, or refused where it is not enabled or is parked in CAS6 (R463). -/
def selectThread (t : ThreadId) (s : State) : State :=
  let d := { s.dbg with sel := BitVec.ofNat 7 t.val, selWait := none, injWait := none }
  let parked : Bool := decide (parkCode (s.thr t).pend = 5)
  if (s.thr t).en = false ∨ parked then { s with dbg := { d with selReady := false, selRefused := true } }
  else discardPend t { s with dbg := { d with selReady := true, selRefused := false } }

/-- A selection that waited for the end of a step is applied (R474). -/
def lateSelect (s : State) : State :=
  match s.dbg.selWait with
  | some t => selectThread t s
  | none => s

/-- A request for a halt is recognised (R459, R460): HALTING sets and every reservation clears. Only an attached debugger
halts the tile. A request that a stepped word makes ends the step, with its own lower CAUSE (DEDUCED, notes/assumptions/30.md). -/
def startHalt (cause : BitVec 3) (t : BitVec 7) (comp : BitVec 3) (s : State) : State :=
  let d := { s.dbg with
    cause := cause
    thread := t
    comp := comp
    cmpThreads := if cause = 2 then t :: s.dbg.cmpThreads.erase t else s.dbg.cmpThreads }
  if s.dbg.attached = false then s
  else if s.dbg.stepping then lateSelect { clearAllResv s with dbg := { d with stepping := false, stepst := 0 } }
  else if s.frozen then s
  else { clearAllResv s with dbg := { d with halting := true } }

/-- A write of 1 to DBG.CTL.HALT (R459); while the tile stands halted, a step that runs included, it does nothing (R462). -/
def askHalt (s : State) : State := if s.dbg.halted then s else startHalt 0 0 0 s

/-- A step ends with an outcome, and the tile stands halted again with CAUSE 4 (R464, R460). Unless its word parked, the thread is no longer
one that a comparator halted, and the release sets no SKIP for it (R462; DESIGN CHOICE, notes/assumptions/131.md). -/
def endStep (code : BitVec 3) (ready : Bool) (s : State) : State :=
  if s.dbg.stepping then
    lateSelect { clearAllResv s with dbg := { s.dbg with
      stepping := false
      stepst := code
      cause := 4
      thread := s.dbg.sel
      comp := 0
      cmpThreads := if code = 3 then s.dbg.cmpThreads else s.dbg.cmpThreads.erase s.dbg.sel
      selReady := s.dbg.selReady && ready } }
  else s

/-! ### Retirement -/

/-- A word of a thread retires and the thread continues at a word address: SKIP clears (R467) and the word is no longer in
flight. An injected word changes no PC and no SKIP and completes in DBG.ISTAT (R465). -/
def retire (t : ThreadId) (pc : WAddr) (s : State) : State :=
  match (s.thr t).inj with
  | some _ =>
    let s1 := s.modThr t fun th => { th with pend := .none, inj := none, arithMet := false, predMet := false, oldPreds := [] }
    { s1 with dbg := { s1.dbg with istDone := true, injUndo := [] } }
  | none =>
    endStep 1 true <| s.modThr t fun th =>
      { th with
        pend := .none
        skip := false
        arithMet := false
        predMet := false
        oldPreds := oldPredsNext th.oldPreds
        chainAt := if pc = th.arch.pc + 1 then th.chainAt else none
        arch := { th.arch with pc := pc } }

/-- A word retires and the thread continues at the next word. -/
def retireNext (t : ThreadId) (s : State) : State := retire t ((s.thr t).arch.pc + 1) s

/-- A word parks: it stays unretired until its wait ends, and a stepped one ends the step (R464). -/
def park (t : ThreadId) (p : Pend) (s : State) : State := endStep 3 false (s.modThr t fun th => { th with pend := p })

/-! ### Leash -/

/-- A leash ends without an overrun (R255). -/
def endLeash (th : Thread) : Thread := { th with leash := { th.leash with on := false, count := 0 } }

/-! ### Comparators (R467) -/

/-- Does comparator i of a core watch a thread for an access kind: EN, its bit of THR and the kind? -/
def cmpWatches (k : Core) (t : ThreadId) (kinds : List Nat) (i : Nat) : Bool :=
  let b := k.cmpb.getD i 0
  b.getLsbD 47 && b.getLsbD (36 + t.idx) && decide ((b.extractLsb' 45 2).toNat ∈ kinds)

/-- The comparators of a core for which a test holds, as HIT shows them. -/
def hitMask (f : Nat → Bool) : BitVec 8 :=
  (List.range 8).foldl (fun acc i => if f i then acc ||| (1#8 <<< i) else acc) 0

/-- No comparator matches while SKIP is 1, nor for an injected word (DEDUCED, notes/assumptions/9.md). -/
def cmpOff (s : State) (t : ThreadId) : Bool := (s.thr t).skip || (s.thr t).inj.isSome

/-- The PC comparators that match the thread's next word. -/
def pcHits (s : State) (t : ThreadId) : BitVec 8 :=
  if cmpOff s t then 0
  else
    let k := s.cor t.core
    let pc := (s.thr t).arch.pc
    hitMask fun i =>
      let m := (k.cmpb.getD i 0).extractLsb' 0 20
      cmpWatches k t [0] i && decide (pc &&& m = (k.cmpa.getD i 0).extractLsb' 0 20 &&& m)

/-! ### Tags granted to parked threads (R187, R190, R381) -/

/-- A wait ends: its operands are popped and its result pushed. None: the fill of its operands waits for a store. -/
def endWait (t : ThreadId) (n : Nat) (vs : List Cell) (s : State) : Option State :=
  (ensureCur t false n s).map (popPush t n vs)

/-- May a thread's word in flight go on: its core is in service and the tile is not halted, or it is the word a debugger steps or
injects, the last on a thread that KILL has stopped too (R178, R426, R463 to R465)? A mode switch holds back no wait that ends. DEDUCED (notes/assumptions/80.md). So may the wait of a thread that a commanded load has disabled (R446; DESIGN CHOICE,
notes/assumptions/130.md). -/
def mayWake (s : State) (t : ThreadId) : Bool :=
  let stepped := s.dbg.stepping && decide (s.dbg.sel.toNat = t.val)
  (s.thr t).inj.isSome || (!(s.thr t).stopped && (stepped || (!s.frozen && coreUp s t.core)))

/-- A thread parked in TAG whose item has been granted its tag goes on with the tag held. -/
def wakeTag (t : ThreadId) (s : State) : State :=
  match mayWake s t, (s.thr t).pend, currentItem s t with
  | true, .tag tag _, some it =>
    if it.tag = some (tag, .granted) then
      ((endWait t 3 [flagCell true] s).map fun x =>
        retireNext t (modItem x it.id fun y => { y with tag := some (tag, .held) })).getD s
    else s
  | _, _, _ => s

/-- Let the threads whose tags have been granted go on. A word that meets a parity error or a comparator as it retires waits for
`wake` to stop it (R215, R467). -/
def wakeTags (s : State) : State :=
  s.fetch.items.foldl (fun acc it => match it.place, it.tag with
    | .current t, some (_, .granted) => if (acc.thr t).robPar ∨ pcHits acc t ≠ 0 then acc else wakeTag t acc
    | _, _ => acc) s

/-! ### KILL, machine checks and fences -/

/-- The thread ends as KILL ends it (R114). -/
def stopThread (t : ThreadId) (s : State) : State :=
  let s1 := wakeTags (returnSlot (abandonItem s t 1 false) t)
  s1.modThr t fun th => { endLeash th with stopped := true, resv := none, pend := .none }

/-- A machine check event (R286): REASON, CORE and THREAD are written when PEND is 0; otherwise MORE sets. -/
def raiseMC (reason : BitVec 4) (core : BitVec 4) (thread : BitVec 7) (s : State) : State :=
  if s.tic.mcPend then { s with tic := { s.tic with mcMore := true } }
  else { s with tic := { s.tic with mcPend := true, mcReason := reason, mcCore := core, mcThread := thread } }

/-- Could a thread take a machine check (R287)? -/
def mcAble (s : State) (t : ThreadId) : Bool :=
  (s.thr t).en && !(s.thr t).stopped && !(s.cor t.core).fenced

/-- The delivery thread of R287, if there is one. -/
def mcTarget (s : State) : Option ThreadId :=
  let t : ThreadId := ⟨s.tic.mctgt.toNat % 128, Nat.mod_lt _ (by decide)⟩
  if mcAble s t then some t else threadIds.find? (mcAble s)

/-- FENCE of TIC.MCSTAT (R286). -/
def fenceBits (s : State) : BitVec 16 :=
  coreIds.foldl (fun acc c => if (s.cor c).fenced then acc ||| (1#16 <<< c.val) else acc) 0

/-- TILE_FAULT (R285); in Off it is clamped to 0 (R475). -/
def tileFault (s : State) : Bool :=
  decide (s.pwr.rest ≠ .off) && (decide (fenceBits s ≠ 0) || (s.tic.mcPend && (mcTarget s).isNone))

/-- Is a thread in a scope? -/
def inScope (t : ThreadId) : OwnScope → Bool
  | .thread x => decide (x = t)
  | .core c => decide (t.core = c)
  | .tile => true

/-- The thread whose owner ID a fabric request carries. -/
def FabReq.thread (r : FabReq) : ThreadId := ⟨r.owner.toNat % 128, Nat.mod_lt _ (by decide)⟩

/-- What a scope's requests leave at the fabric port before its reset is signalled (R480): one that the fabric has not taken and whose word or store
is gone is withdrawn, with the line fill that it would have answered. DEDUCED (notes/assumptions/53.md). -/
def withdrawFab (o : OwnScope) (s : State) : State :=
  let goes := fun (r : FabReq) => !r.taken && decide (r.use = .orphan) && inScope r.thread o
  let tags := (s.fab.out.filter goes).map (·.tag)
  let stays := fun (k : Core) => { k with dfills := k.dfills.filter fun e => !(e.2.any tags.contains) }
  let s1 := { s with fab := { s.fab with out := s.fab.out.filter fun r => !goes r } }
  match o with
  | .thread t => s1.modCor t.core stays
  | .core c => s1.modCor c stays
  | .tile => { s1 with cores := s1.cores.map stays }

/-- Signal OWNER_RESET for a scope (R144, R480). -/
def signalOwner (o : OwnScope) (s : State) : State :=
  let s1 := withdrawFab o s
  { s1 with ownq := s1.ownq ++ [o] }

/-- The threads of a core lose what they have in flight, their items are handled for a loss cause, and their slots' items
return (R285, R389, R390). DESIGN CHOICE, unsafe (log entry 94): where several items are lost in the one cycle, their loss entries
(R391) are made by ascending thread number. -/
def clearCore (c : CoreId) (cause : BitVec 2) (s : State) : State :=
  leaveAdmission ((coreThreads c).foldl (fun acc t => returnSlot (abandonItem (discardPend t acc) t cause true) t) s) c

/-- A core's stores that have not drained are discarded (R285). -/
def dropStores (c : CoreId) (s : State) : State :=
  let s1 := s.modCor c fun k => { k with sb := [] }
  { s1 with
    ks := (coreThreads c).foldl (fun acc t => orphanKeep t acc) s1.ks
    fab := { s1.fab with out := s1.fab.out.map fun r => match r.use with
      | .store t => if t.core = c then { r with use := .orphan } else r
      | _ => r } }

/-- The fence of a core (R284, R285). -/
def fenceCore (c : CoreId) (reason : BitVec 4) (s : State) : State :=
  let s1 := clearCore c 0 (dropStores c s)
  let s2 := (coreThreads c).foldl (fun acc t => acc.modThr t fun th => { endLeash th with ev := th.ev }) s1
  let s3 := s2.modCor c fun k => { k with fenced := true, switching := false, mapPar := false }
  raiseMC reason (BitVec.ofNat 4 c.val) 0 (signalOwner (.core c) (wakeTags s3))

/-! ### Taking an exception -/

/-- The higher of two levels (R230). -/
def lvlMax (a b : Level) : Level := if levelNum a < levelNum b then b else a

/-- The floor of a cause (R261); 0b11 acts as M. -/
def causeFloor (s : State) (c : CoreId) (cause : BitVec 6) : Level :=
  let n := cause.toNat
  if 1 ≤ n ∧ n ≤ 16 then (levelOf ((s.cor c).xfloor.extractLsb' (2 * n - 2) 2)).getD .M else .M

/-- The vector base of a level (R260). -/
def Core.vbase (k : Core) : Level → BitVec 11
  | .T => k.vbaseT
  | .S => k.vbaseS
  | .M => k.vbaseM

/-- The vector of a cause at a level: VBASE.L + 8 × c (R260). -/
def vectorOf (k : Core) (l : Level) (cause : BitVec 6) : WAddr := k.vbase l ++ cause ++ 0#3

/-- The PC entry of a frame (R263). -/
def pcEntry (a : Arch) : Cell :=
  3#2 ++ 0#23 ++ BitVec.ofBool a.p3 ++ BitVec.ofBool a.p2 ++ BitVec.ofBool a.p1 ++ a.pc

/-- The status entry of a frame pushed at a level (R263). -/
def statusEntry (a : Arch) (l : Level) (cause : BitVec 6) (src : BitVec 9) : Cell :=
  3#2 ++ levelBits l ++ levelBits a.level ++ BitVec.ofBool a.handler ++ a.ipl ++ 0#1 ++ cause ++ src ++ 0#21

/-- The exception record of an entry (R262). -/
def xrecCell (x : Exc) (from' : Level) : Cell := x.cause ++ x.sub ++ levelBits from' ++ x.addr

/-- Write the exception record of a level. -/
def Thread.setXrec (th : Thread) (l : Level) (v : Cell) : Thread :=
  match l with
  | .T => { th with xrecT := v }
  | .S => { th with xrecS := v }
  | .M => { th with xrecM := v }

/-- The chain buffer is filled: the first 4 words of slot 0x00 of a level, up to the first that a fetch does not deliver, and the state
after their fetches (R281, R350). -/
def chainFill (c : CoreId) (l : Level) (s : State) : List PWord × State :=
  (List.range 4).foldl (fun acc j =>
    if acc.1.length = j then
      let f := fetchWord acc.2 c (vectorOf (s.cor c) l 0 + BitVec.ofNat 20 j)
      match f.1 with
      | .word w => (acc.1 ++ [w], f.2)
      | _ => (acc.1, f.2)
    else acc) ([], s)

/-- What an entry is for: the cause, an interrupt's source and priority, and an exception's record. -/
structure Entry where
  cause : BitVec 6
  src : BitVec 9
  ipl : Option (BitVec 4)
  xrec : Option Exc
  deriving DecidableEq, Repr

/-- The fetch of a vector's first word (R265): none where it succeeds. -/
def vectorFault (s : State) (c : CoreId) (v : WAddr) : Option Exc × State :=
  let f := fetchWord s c v
  match f.1 with
  | .word _ => (none, f.2)
  | .parity => (some { cause := 0x0E, sub := 0, addr := v.setWidth 36 }, f.2)
  | .unmapped => (some { cause := 3, sub := 6, addr := v.setWidth 36 }, f.2)

/-- A thread's state as an entry at level l finds its stacks: l emptied when it lies above the running level (R236), and
one more frame counted in l's valid linkage (R243, R264). -/
def entryArch (a : Arch) (l : Level) : Arch :=
  let a1 := if levelNum a.level < levelNum l then a.emptyLevel l else a
  let g := a1.glink l
  if g.valid then a1.setGlink l { g with frames := g.frames + 1 } else a1

/-- The state of an entry at a level, all its checks passed: the frame pushed and the thread at the vector (R264). FROM is the level that
runs as the entry is taken, for a store fault that an interrupt entry put off too (R262; DESIGN CHOICE, notes/assumptions/142.md). -/
def entered (t : ThreadId) (l : Level) (e : Entry) (s : State) : State :=
  let a := (s.thr t).arch
  let s1 := s.modArch t fun _ => entryArch a l
  let s2 := replaceTop t l true 0 [PCell.of (statusEntry a l e.cause e.src), PCell.of (pcEntry a)] s1
  let r := chainFill t.core l s2
  r.2.modThr t fun th =>
    let th1 := { th with
      pend := .none
      inj := none
      robPar := false
      arithMet := false
      predMet := false
      oldPreds := []
      resv := none
      skip := false
      unstack := none
      entering := if e.cause = 0 then some (l, e.ipl.getD th.arch.ipl) else none
      leash := if th.leash.ovrpend then { th.leash with nest := th.leash.nest + 1 } else th.leash
      chainBuf := r.1
      chainLvl := l
      chainAt := none
      arch := { th.arch with
        level := l
        handler := true
        pc := vectorOf (s.cor t.core) l e.cause
        ipl := e.ipl.getD th.arch.ipl } }
    match e.xrec with
    | some x => th1.setXrec l (xrecCell x a.level)
    | none => th1

/-- Try an entry at a level: the exception that makes it fail (R265), or the state after it. -/
def tryEnter (t : ThreadId) (l : Level) (e : Entry) (s : State) : Option Exc × State :=
  let a := entryArch (s.thr t).arch l
  let k := (a.stk l).rs
  if k.fits (k.depth + 2) = false then (some excOver, s)
  else
    let v := vectorFault s t.core (vectorOf (s.cor t.core) l e.cause)
    match v.1 with
    | some x => (some x, v.2)
    | none => (none, entered t l e v.2)

/-- A failed entry at M: the thread stops as KILL stops it, with a machine check of reason ENTRY (R265). -/
def failAtM (t : ThreadId) (s : State) : State :=
  raiseMC 4 (BitVec.ofNat 4 t.core.val) (BitVec.ofNat 7 t.val) (stopThread t s)

/-- An entry at M for the cause of an entry that failed below M (R265). -/
def enterAtM (t : ThreadId) (x : Exc) (s : State) : State :=
  let r := tryEnter t .M { cause := x.cause, src := 0, ipl := none, xrec := some x } s
  match r.1 with
  | none => r.2
  | some _ => failAtM t r.2

/-- An entry failed at a level for a cause: taken at M instead, or at M the thread stops (R265). -/
def failedEntry (t : ThreadId) (l : Level) (x : Exc) (s : State) : State :=
  if l = .M then failAtM t s else enterAtM t x s

/-- An entry at a level (R264, R265). An interrupt whose entry fails stays pending and its hold is released (R274). -/
def enter (t : ThreadId) (l : Level) (e : Entry) (s : State) : State :=
  let r := tryEnter t l e s
  match r.1 with
  | none => r.2
  | some x => failedEntry t l x (if e.cause = 0 then releaseHold e.src.toNat r.2 else r.2)

/-- The level that takes an exception: the higher of the running level and the cause's floor; M for the return fault and
the machine check (R261). -/
def exceptionLevel (s : State) (t : ThreadId) (cause : BitVec 6) : Level :=
  if cause = 0x0A ∨ cause = 0x3F then .M else lvlMax (curLevel s t) (causeFloor s t.core cause)

/-- TAKING AN EXCEPTION: the entry at the level that takes it, with its record (R261 to R264). -/
def takeException (t : ThreadId) (x : Exc) (s : State) : State :=
  enter t (exceptionLevel s t x.cause) { cause := x.cause, src := 0, ipl := none, xrec := some x } s

/-- A byte goes back to what it was, where it still holds what the step stored (R465). -/
def backIf (now : StoredByte) (before : Option StoredByte) (b : StoredByte) : StoredByte := if b = now then before.getD b else b

/-- A byte that a step of an injected word wrote goes back to what it was: in storage, in a borrow buffer and in the core's D-cache. -/
def undoByte (c : CoreId) (s : State) (u : ByteUndo) : State :=
  let s1 := putMem s u.addr (backIf u.now (some u.mem) (smGet 0 s.mem u.addr))
  let s2 := match spadCore u.addr with
    | some d =>
      let w := (s1.cor d).borrow
      if inWindow w (spadOff u.addr) then
        putBuf s1 d (spadOff u.addr) (backIf u.now u.buf (smGet 0 w.buf (spadOff u.addr % 1024)))
      else s1
    | none => s1
  s2.modCor c fun k => { k with dlines := k.dlines.map fun l => { l with
    bytes := (l.bytes.zip (span l.addr 48)).map fun e => if e.2 = u.addr then backIf u.now u.line e.1 else e.1 } }

/-- A step's write of an injected word is undone (R465). -/
def undoStep (t : ThreadId) (s : State) (u : StepUndo) : State :=
  let s1 := (u.bytes.foldl (undoByte t.core) s).modCor t.core fun k =>
    { k with dfills := k.dfills ++ u.fills.filter fun f => !k.dfills.contains f }
  let s2 := match u.edits with
    | some e => modItem s1 e.1 fun it => { it with edits := e.2 }
    | none => s1
  u.resv.foldl (fun acc r => acc.modThr r.1 fun th => { th with resv := th.resv <|> some r.2 }) s2

/-- What an injected word wrote in the steps before it waited is undone: one that raises an exception has no effect (R465). What host
memory has acknowledged the tile cannot take back. DESIGN CHOICE (notes/assumptions/139.md). -/
def undoInjected (t : ThreadId) (s : State) : State :=
  let s1 := s.dbg.injUndo.foldl (undoStep t) s
  { s1 with dbg := { s1.dbg with injUndo := [] } }

/-- What undoes the write of some bytes at a stored address, or of a frame's edits, by a thread's step. -/
def undoOf (t : ThreadId) (isFrame : Bool) (a : Nat) (bs : List Byte) (s : State) : StepUndo :=
  let k := s.cor t.core
  let bytes := (bs.zip (span a bs.length)).map fun e : Byte × Nat =>
    { addr := e.2
      mem := smGet 0 s.mem e.2
      buf := (spadCore e.2).bind fun c =>
        if inWindow (s.cor c).borrow (spadOff e.2) then some (smGet 0 (s.cor c).borrow.buf (spadOff e.2 % 1024)) else none
      line := (k.dlines.find? fun l => decide (l.addr ≤ e.2 ∧ e.2 < l.addr + 48)).map fun l => l.bytes.getD (e.2 - l.addr) 0
      now := encByte e.1 : ByteUndo }
  { bytes := if isFrame then [] else bytes
    edits := if isFrame then (currentItem s t).map fun it => (it.id, it.edits) else none
    fills := if isFrame then [] else k.dfills.filter fun f => overlaps f.1 48 a bs.length
    resv := if isFrame then [] else threadIds.filterMap fun u =>
      (s.thr u).resv.bind fun key => if ((span a bs.length).map cellKey).contains key then some (u, key) else none }

/-- A step of an injected word is about to write (R465); no other word is undone. -/
def noteUndo (t : ThreadId) (isFrame : Bool) (a : Nat) (bs : List Byte) (s : State) : State :=
  if (s.thr t).inj.isSome then { s with dbg := { s.dbg with injUndo := undoOf t isFrame a bs s :: s.dbg.injUndo } } else s

/-- A word raises an exception: it does not retire, and the thread takes the exception; an injected word's goes into
DBG.ISTAT and DBG.IADDR instead, and the word has no effect (R465), and a stepped word's ends the step (R464). -/
def raiseExc (t : ThreadId) (x : Exc) (s0 : State) : State :=
  match (s0.thr t).inj with
  | some _ =>
    let s := undoInjected t s0
    let s1 := s.modThr t fun th => { th with pend := .none, inj := none }
    { s1 with dbg := { s1.dbg with
        istDone := true, istExc := true, istCause := x.cause, istSub := x.sub, iaddr := x.addr } }
  | none => endStep 2 true (takeException t x s0)

/-! ### Comparators of data, and a match (R467) -/

/-- The data comparators that match an access of n bytes from an effective address: a write or a read. -/
def dataHits (s : State) (t : ThreadId) (write : Bool) (ea n : Nat) : BitVec 8 :=
  if cmpOff s t then 0
  else
    let k := s.cor t.core
    hitMask fun i =>
      let m := ((k.cmpb.getD i 0).extractLsb' 0 36).toNat
      cmpWatches k t (if write then [2, 3] else [1, 3]) i &&
        (span ea n).any fun b => decide (b &&& m = (k.cmpa.getD i 0).toNat &&& m)

/-- DBG.CSTAT records the comparators that matched a word of a thread (R467). -/
def noteHits (t : ThreadId) (hits : BitVec 8) (s : State) : State :=
  s.modCor t.core fun x => { x with csValid := true, csHit := hits }

/-- Does one of the comparators that matched ask for a halt while a debugger is attached (R459)? -/
def hitsHalt (s : State) (t : ThreadId) (hits : BitVec 8) : Bool :=
  ((List.range 8).any fun i => hits.getLsbD i && ((s.cor t.core).cmpb.getD i 0).getLsbD 44) && s.dbg.attached

/-- The comparators matched: DBG.CSTAT records them; the tile halts when one of them asks for it and a debugger is
attached, and otherwise the thread takes the breakpoint exception (R459, R467). HALT goes before EXC, and COMP is the lowest of all that
matched (DESIGN CHOICE, notes/assumptions/109.md). -/
def breakHit (t : ThreadId) (hits : BitVec 8) (s : State) : State :=
  let low := ((List.range 8).find? fun i => hits.getLsbD i).getD 0
  if hitsHalt s t hits then startHalt 2 (BitVec.ofNat 7 t.val) (BitVec.ofNat 3 low) (noteHits t hits s)
  else raiseExc t { cause := 0x0F, sub := 0, addr := 0 } (noteHits t hits s)

/-! ### Running a word -/

/-- What a word's own effect comes to: it retires and continues at the next word or at an address, it stays unretired, it has
retired by its own effect, it raises an exception, comparators match one of its accesses, or it is a BKPT that halts the tile. -/
inductive WRes where
  | next (s : State)
  | jump (pc : WAddr) (s : State)
  | hold (s : State)
  | retired (s : State)
  | trap (x : Exc) (s : State)
  | brk (hits : BitVec 8) (s : State)
  | halt (s : State)

/-- The parity exception of a reorder-buffer entry (R215, R259). -/
def excRob : Exc := { cause := 0x0D, sub := 3, addr := 0 }

/-- RETIREMENT: the comparators that match the word come before every exception of its own (R474, R467), and a parity error of its
reorder-buffer entry before the others (R215). A word that they keep from retiring leaves the state it failed in, or else the one
given. A BKPT that halts keeps its lower CAUSE where a comparator asks for a halt too (R459). DEDUCED (notes/assumptions/81.md). Where the
comparator asks for the exception, that acts and the BKPT asks for no halt (DESIGN CHOICE, notes/assumptions/148.md). -/
def retirePhase (t : ThreadId) (hits : BitVec 8) (rob : Bool) (kept : State) : WRes → WRes
  | .hold s => .hold s
  | .brk h s => .brk (hits ||| h) s
  | .halt s =>
    if hits ≠ 0 then (if hitsHalt s t hits then .halt (noteHits t hits s) else .brk hits s)
    else if rob then .trap excRob s
    else .halt s
  | .trap x s => if hits ≠ 0 then .brk hits s else if rob then .trap excRob s else .trap x s
  | r => if hits ≠ 0 then .brk hits kept else if rob then .trap excRob kept else r

/-- What a control transfer does to the return predictor (R217). -/
inductive Xfer where
  | branch | call | ret
  deriving DecidableEq, Repr

/-- A word's tests and its effect, in the order of R59: its kind where it is a control transfer (R216), its illegal-opcode
subcode, its helper class, the levels that may run it, its operand-stack effect, what its reading of the operand cells raises
(R208, R215), and its own checks and effect on these cells, top first. -/
structure WordSem where
  transfer : Option Xfer
  illegal : Option (BitVec 4)
  helper : Option Nat
  allowed : Level → Bool
  pops : Nat
  pushes : Nat
  test : List PCell → Option Exc
  body : List PCell → State → WRes

/-- A word that every level may run, and that has no further test before its operands. -/
def WordSem.plain (pops pushes : Nat) (body : List PCell → State → WRes) : WordSem where
  transfer := none
  illegal := none
  helper := none
  allowed := fun _ => true
  pops := pops
  pushes := pushes
  test := readFault false
  body := body

/-- Step 5 of R59: the operand-stack effect against the limits (R236, R88). Only a pop raises stack underflow: a word that pops nothing does
not, whatever the depth. -/
def stackFault (s : State) (t : ThreadId) (pops pushes : Nat) : Option Exc :=
  let k := s.stk t (curLevel s t) false
  if pops ≠ 0 ∧ k.depth < pops then some { cause := 7, sub := 0, addr := 0 }
  else if pops < pushes ∧ k.fits (k.depth - pops + pushes) = false then some { cause := 6, sub := 0, addr := 0 }
  else none

/-- Is a helper class present: HELPERS[i] of CORE.IDENT (R72, R79, R438)? -/
def helperPresent (s : State) (i : Nat) : Bool :=
  if i = 4 then s.help.chPresent else s.help.ready.getLsbD i

/-- The branch target buffer after a transfer at a word address retires, taken to a target or not (R216). -/
def btbUpdate (m : SMap BtbEntry) (pc : WAddr) (taken : Option WAddr) : SMap BtbEntry :=
  let i := (pc.extractLsb' 0 9).toNat
  let tag : BitVec 11 := pc.extractLsb' 9 11
  let dead : BtbEntry := { tag := 0, target := 0, ctr := 0 }
  match m.find? (fun e => decide (e.1 = i ∧ e.2.tag = tag)), taken with
  | some e, some x =>
    smIns i { e.2 with target := x, ctr := if e.2.ctr = 3 then 3 else e.2.ctr + 1 } (smDel m i)
  | some e, none => smIns i { e.2 with ctr := if e.2.ctr = 0 then 0 else e.2.ctr - 1 } (smDel m i)
  | none, some x => smIns i { dead with tag := tag, target := x, ctr := 2 } (smDel m i)
  | none, none => m

/-- Does a word address hit the branch target buffer (R216)? -/
def btbHas (m : SMap BtbEntry) (pc : WAddr) : Bool :=
  m.any fun e => decide (e.1 = (pc.extractLsb' 0 9).toNat ∧ e.2.tag = pc.extractLsb' 9 11)

/-- The branch target buffer of a core after a transfer of a thread retires: of two updates of one entry in one core cycle, that of the
lower thread number is applied (R216, R226); a word that a debugger steps retires alone in its cycle. Two of one thread are both
applied, in their order (DESIGN CHOICE, notes/assumptions/114.md). A transfer that is not taken and misses updates nothing. -/
def btbRetire (stepped : Bool) (t : ThreadId) (pc : WAddr) (taken : Option WAddr) (k : Core) : Core :=
  let i := (pc.extractLsb' 0 9).toNat
  let marks := if stepped then [] else k.btbMark
  let rival := marks.find? fun m => decide (m.idx = i)
  if rival.any fun m => decide (m.thread < t) then k
  else
    let base := match rival with
      | some m => if m.thread = t then k.btb else m.old.elim (smDel k.btb i) fun e => smIns i e (smDel k.btb i)
      | none => k.btb
    if taken.isNone && !btbHas base pc then k
    else
      let old := rival.elim ((base.find? fun e => decide (e.1 = i)).map (·.2)) (·.old)
      { k with
        btb := btbUpdate base pc taken
        btbMark := if stepped then [] else { idx := i, thread := t, old := old } :: marks.filter fun m => decide (m.idx ≠ i) }

/-- The return predictor after a transfer's resolved effect (R217): a squashed transfer changes nothing. -/
def predUpdate (l : List WAddr) (pc : WAddr) (k : Xfer) : List WAddr :=
  match k with
  | .branch => l
  | .call => ((pc + 1) :: l).take 8
  | .ret => l.drop 1

/-- The prediction structures after a transfer retires: a deterministic core uses neither (R216, R217, R220).
DEDUCED (notes/assumptions/75.md). -/
def noteTransfer (t : ThreadId) (k : Option Xfer) (taken : Option WAddr) (s : State) : State :=
  match k with
  | none => s
  | some x =>
    if (s.cor t.core).act then s
    else
      let pc := (s.thr t).arch.pc
      let s1 := s.modCor t.core (btbRetire s.dbg.stepping t pc taken)
      if taken.isSome then s1.modThr t fun th => { th with retPred := predUpdate th.retPred pc x } else s1

/-- Carry out a word's own result. -/
def finishWord (t : ThreadId) (k : Option Xfer) : WRes → State
  | .next s => retireNext t (noteTransfer t k none s)
  | .jump pc s => retire t pc (noteTransfer t k (some pc) s)
  | .hold s => s
  | .retired s => s
  | .trap x s => raiseExc t x s
  | .brk hits s => breakHit t hits s
  | .halt s => startHalt 1 (BitVec.ofNat 7 t.val) 0 s

/-- The exception that steps 1 and 2 of R59 raise. -/
def illegalExc (sem : WordSem) (s : State) (pc : WAddr) : Option Exc :=
  match sem.illegal with
  | some sub => some { cause := 1, sub := sub, addr := pc.setWidth 36 }
  | none => match sem.helper with
    | some i => if helperPresent s i then none else some { cause := 1, sub := 2, addr := pc.setWidth 36 }
    | none => none

/-- The word's effect on its operands, once it has passed steps 1 to 5 of R59: the demand fill, the test of what it reads
(R208, R215), then its own checks and effect. -/
def operandPhase (t : ThreadId) (sem : WordSem) (s : State) : WRes :=
  match ensureCur t false sem.pops s with
  | none => .hold s
  | some s1 =>
    let cells := curTop s1 t false sem.pops
    match sem.test cells with
    | some x => .trap x s1
    | none => sem.body cells s1

/-- Steps 1 to 6 of R59 for a word whose fetch delivered it. -/
def wordPhase (t : ThreadId) (g : Guard) (sem : WordSem) (s : State) : WRes :=
  let a := (s.thr t).arch
  match illegalExc sem s a.pc with
  | some x => .trap x s
  | none =>
    if (s.thr t).guardPred g = false then .next s
    else if sem.allowed (rightsLevel s t) = false then .trap { cause := 5, sub := 0, addr := 0 } s
    else match stackFault s t sem.pops sem.pushes with
      | some x => .trap x s
      | none => operandPhase t sem s

/-- The fetch of a word by a thread: after a chain that the buffer served, the words it holds come from it (R281). -/
def threadFetch (s : State) (t : ThreadId) (pc : WAddr) : FetchRes × State :=
  let buffered := (s.thr t).chainAt.bind fun v => (s.thr t).chainBuf[(pc - v).toNat]?
  match buffered with
  | some w => (.word w, s)
  | none => fetchWord s t.core pc

/-- Does a thread wait for the semaphore unit? -/
def isCas6 : Pend → Bool
  | .cas6 _ _ => true
  | _ => false

/-- Does a word in flight act before it retires, so that a comparator has to stop it first: a CAS6, whose request leaves, and a FLUSH
(R132, R467)? -/
def actsEarly : Pend → Bool
  | .flush _ => true
  | p => isCas6 p

/-- The fetch of the thread's next word: an unmapped address raises a bus error there, a comparator matches before the
word's own exceptions unless the word parks or waits, and a word that failed its code raises program parity whatever its guard holds (R66, R194, R350,
R467). An injected word is not fetched (R465). -/
def fetchPhase (t : ThreadId) (g : Guard) (sem : WordSem) (s : State) : WRes :=
  if (s.thr t).inj.isSome then wordPhase t g sem s
  else
    let pc := (s.thr t).arch.pc
    let f := threadFetch s t pc
    let hits := pcHits f.2 t
    let rob := (s.thr t).robPar
    match f.1 with
    | .unmapped => .trap { cause := 3, sub := 6, addr := pc.setWidth 36 } f.2
    | .parity => retirePhase t hits rob f.2 (.trap { cause := 0x0E, sub := 0, addr := pc.setWidth 36 } f.2)
    | .word _ => match retirePhase t hits rob f.2 (wordPhase t g sem f.2) with
      | .hold s1 => if hits ≠ 0 ∧ actsEarly (s1.thr t).pend then .brk hits f.2 else .hold s1
      | r => r

/-- A thread issues a word: whatever an entry or an unstacking left open is closed. -/
def beginWord (t : ThreadId) (s : State) : State := s.modThr t fun th => { th with unstack := none, entering := none }

/-- A word of a thread, with no test of whether the thread may issue. -/
def doWord (t : ThreadId) (g : Guard) (sem : WordSem) (s : State) : State :=
  finishWord t sem.transfer (fetchPhase t g sem (beginWord t s))

/-! ### Interrupt recognition -/

/-- Is a thread in the target mask of a source (R268)? -/
def inTarget (s : State) (i : Nat) (t : ThreadId) : Bool :=
  if 320 ≤ i then decide (i = 320 + t.val) else (s.src i).tgt.getLsbD t.val

/-- R273, first list: is a source recognisable for a thread, against an IPL and a running level? -/
def recognisable (s : State) (t : ThreadId) (ipl : BitVec 4) (l : Level) (i : Nat) : Bool :=
  let x := s.src i
  srcExists i && x.pend && decide (x.prio ≠ 0) && inTarget s i t && decide (ipl < x.prio) &&
    decide (levelNum l ≤ levelNum x.lvl) && decide (x.held = none ∨ x.held = some t)

/-- The source of highest priority among those that pass a test, the lowest number among equals (R273). -/
def bestSource (s : State) (ok : Nat → Bool) : Option Nat :=
  (s.tic.src.map (·.1)).foldl (fun acc i =>
    if ok i then
      match acc with
      | none => some i
      | some j => if (s.src j).prio < (s.src i).prio ∨ ((s.src i).prio = (s.src j).prio ∧ i < j) then some i else some j
    else acc) none

/-- R273's second list: may a source be recognised for a thread at a boundary? A mode switch does not prevent it.
DEDUCED (notes/assumptions/80.md). -/
def mayRecognise (s : State) (t : ThreadId) : Bool :=
  let th := s.thr t
  decide (s.boot = .run) && !s.frozen && uncoreRuns s && coreUp s t.core &&
    th.en && !th.stopped && !th.leash.on

/-- Does no lower thread number take the source: recognisable for several threads, it goes to the lowest of them (R274)? -/
def firstFor (s : State) (t : ThreadId) (i : Nat) : Bool :=
  !(threadIds.any fun u => decide (u < t) && mayRecognise s u && recognisable s u (s.thr u).arch.ipl (s.thr u).arch.level i)

/-- The source that a thread recognises at a boundary (R273, R274). -/
def recognised (s : State) (t : ThreadId) : Option Nat :=
  bestSource s fun i => recognisable s t (s.thr t).arch.ipl (s.thr t).arch.level i && firstFor s t i

/-- Would the thread take an interrupt at this boundary (R279 row 4)? -/
def interruptWaits (s : State) (t : ThreadId) : Bool := mayRecognise s t && (recognised s t).isSome

/-- Would the thread take a machine check at this boundary (R279 row 1, R288)? -/
def mcWaits (s : State) (t : ThreadId) : Bool :=
  s.tic.mcPend && decide (mcTarget s = some t) && !(s.thr t).arch.mcact && !s.frozen && decide (s.boot = .run) && coreUp s t.core

/-- The leashed code itself runs: every frame pushed since the overrun has been popped.
DEDUCED (notes/assumptions/36.md). -/
def leashedCode (th : Thread) : Bool := decide (th.leash.nest = 0)

/-! ### Issue -/

/-- Does a deterministic core hold the thread's next word back until its store has drained (R118)? -/
def drainsFirst (s : State) (t : ThreadId) : Bool := (s.cor t.core).act && !(storesOf s t).isEmpty

/-- May the thread have a word at issue: the tile runs, its core is in service, switches no mode and loads no profile, the thread is
enabled and not stopped, has nothing in flight, and on a deterministic core has no store to drain (R81, R118, R196, R225, R227,
R446)? -/
def mayIssue (s : State) (t : ThreadId) : Bool :=
  let th := s.thr t
  let k := s.cor t.core
  decide (s.boot = .run) && !s.frozen && decide (s.pwr.rest = .run) && !s.pwr.loading && coreUp s t.core && !k.switching &&
    th.en && !th.stopped && decide (th.pend = .none) && (!k.act || (storesOf s t).isEmpty)

/-- Has the thread something to take at its boundary before its next word issues: a machine check, an interrupt, a store fault or an
overrun of its leash (R125, R255, R256, R273, R279, R288)? -/
def boundaryWaits (s : State) (t : ThreadId) : Bool :=
  let th := s.thr t
  mcWaits s t || interruptWaits s t || !th.sfPend.isEmpty || (th.leash.ovrpend && leashedCode th)

/-- May the thread's next word issue, with no parity error of its core's rename map or of its own reorder-buffer entry in the way
(R215, R284)? -/
def canIssue (s : State) (t : ThreadId) : Bool :=
  mayIssue s t && !boundaryWaits s t && !(s.cor t.core).mapPar && !(s.thr t).robPar

/-- A word at issue meets a parity error: in the core's rename map or free list, which fences the core (R284), or in its own
reorder-buffer entry, which raises parity as the word reaches retirement (R215). DEDUCED (notes/assumptions/81.md). -/
def parityAct (t : ThreadId) (g : Guard) (sem : WordSem) (s : State) : State :=
  if (s.cor t.core).mapPar then fenceCore t.core 1 s else doWord t g sem s

/-- What a word that may issue comes to where a parity error is in its way. -/
def parityStop (t : ThreadId) (g : Guard) (sem : WordSem) (s : State) : State :=
  if mayIssue s t && !boundaryWaits s t then parityAct t g sem s else s

/-- A word offered to a thread: it runs when the thread may issue, and changes nothing otherwise
(DESIGN CHOICE, notes/assumptions/2.md), but that a parity error in its way acts. -/
def runWord (t : ThreadId) (g : Guard) (sem : WordSem) (s : State) : State :=
  if canIssue s t then doWord t g sem s else parityStop t g sem s

/-- Hold a source for a thread (R274). -/
def holdFor (i : Nat) (t : ThreadId) (s : State) : State := s.setSrc i { s.src i with held := some t }

/-- The entry of an interrupt from a source (R259, R264). -/
def interruptEntryOf (s : State) (i : Nat) : Entry :=
  { cause := 0, src := BitVec.ofNat 9 i, ipl := some (s.src i).prio, xrec := none }

/-! ### Returning from an entry (R246, R247, R280, R281) -/

/-- The kind of a return-stack entry (R89). -/
def entryKind (c : Cell) : BitVec 2 := c.extractLsb' 46 2

/-- The frame's SOURCE and CAUSE rewritten for a chained source, on a level's return stack (R281). -/
def rewriteFrame (t : ThreadId) (l : Level) (i : Nat) (s : State) : State :=
  let k := s.stk t l true
  match k.res with
  | st :: rest =>
    let v : Cell := (st.val.extractLsb' 36 12 ++ 0#6) ++ BitVec.ofNat 9 i ++ st.val.extractLsb' 0 21
    s.setStk t l true { k with res := { st with val := v } :: rest }
  | [] => s

/-- A handler runs on for another source without a new frame: by a chain, or by an abandoned unstacking (R281, R282). The
first word of slot 0x00 is fetched unless the chain buffer of a core in normal mode holds it (R283); a fetch that fails
is a failed entry at the frame's level (R265), and one that succeeds fills the chain buffer as an interrupt entry's does (DESIGN CHOICE,
notes/assumptions/143.md). The RETI of a machine-check frame clears MCACT, chained or not (R289). -/
def chainTo (t : ThreadId) (l : Level) (i : Nat) (s : State) : State :=
  let v := vectorOf (s.cor t.core) l 0
  let hit := decide ((s.thr t).chainBuf ≠ []) && decide ((s.thr t).chainLvl = l) && !(s.cor t.core).act
  let f := if hit then (none, s) else vectorFault s t.core v
  match f.1 with
  | some x => failedEntry t l x f.2
  | none =>
    let prio := (f.2.src i).prio
    let ofMC := (f.2.stk t l true).res.head?.any fun st => decide (st.val.extractLsb' 30 6 = 0x3F)
    let held := holdFor i t (rewriteFrame t l i f.2)
    let r := if hit then ((s.thr t).chainBuf, held) else chainFill t.core l held
    r.2.modThr t fun th =>
      { th with
        pend := .none
        arithMet := false
        predMet := false
        oldPreds := []
        unstack := none
        chainBuf := r.1
        chainLvl := l
        chainAt := if hit then some v else none
        skip := false
        robPar := false
        arch := { th.arch with pc := v, ipl := prio, mcact := th.arch.mcact && !ofMC } }

/-- The restored thread: LEVEL from RESTORE, HANDLER and IPL from the status entry, the predicates and the PC from the PC
entry, the levels above emptied and their linkages cleared, the frame counted off its level's linkage (R243, R280). With FRAMES
at 0 the count wraps in its 13 bits. DESIGN CHOICE (notes/assumptions/82.md). -/
def restoredArch (a : Arch) (l restore : Level) (st pc : Cell) : Arch :=
  let g := a.glink l
  let a1 := if g.valid then a.setGlink l { g with frames := g.frames - 1 } else a
  let a2 := a1.dropAbove restore
  { a2 with
    level := restore
    handler := st.getLsbD 41
    ipl := st.extractLsb' 37 4
    p1 := pc.getLsbD 20
    p2 := pc.getLsbD 21
    p3 := pc.getLsbD 22
    pc := pc.extractLsb' 0 20
    mcact := if st.extractLsb' 30 6 = 0x3F then false else a.mcact }

/-- Check 2 of R247: is one of a frame's entries, that carries no error of its own, of another kind than FRAME? The kind of a
poisoned entry is not used (R208). DEDUCED (notes/assumptions/15.md). -/
def kindFails (frame : List PCell) : Bool :=
  frame.any fun c => decide (c.poison = 0 ∧ c.par = 0 ∧ entryKind c.val ≠ 3)

/-- A level that a RETI returns to starts with none of its cells resident: those still in the window go to its spill areas
(R205, R207). -/
def spillLevel (t : ThreadId) (l : Level) (s : State) : State :=
  let s1 := spillMany t l false (s.stk t l false).res.length s
  spillMany t l true (s1.stk t l true).res.length s1

/-- RETURNING FROM AN ENTRY: RETI's checks in the order of R247, then the chain of R281 or the restore of R280. A RETI that chains keeps the
frame and pops nothing, so it releases no hold (R274). -/
def returnFrom (t : ThreadId) (s : State) : WRes :=
  let l := curLevel s t
  if curDepth s t true < 2 then .trap { cause := 8, sub := 1, addr := 0 } s
  else match ensureCur t true 2 s with
    | none => .hold s
    | some s1 =>
      let frame := curTop s1 t true 2
      if kindFails frame then .trap { cause := 8, sub := 2, addr := 0 } s1
      else match readFault true frame, frame with
      | some x, _ => .trap x s1
      | none, st :: pc :: _ =>
        if st.val.extractLsb' 44 2 ≠ levelBits l then .trap { cause := 0x0A, sub := 0, addr := 0 } s1
        else match levelOf (st.val.extractLsb' 42 2) with
          | none => .trap { cause := 0x0A, sub := 1, addr := 0 } s1
          | some restore =>
            if levelNum l < levelNum restore then .trap { cause := 0x0A, sub := 1, addr := 0 } s1
            else
              let src := (st.val.extractLsb' 21 9).toNat
              let s2 := s1.modThr t endLeash
              let chain := if s.frozen || s.dbg.stepping then none
                else bestSource s2 fun i =>
                  recognisable s2 t (st.val.extractLsb' 37 4) restore i && firstFor s2 t i && decide ((s2.src i).lvl = l)
              match chain with
              | some i => .retired (chainTo t l i s2)
              | none =>
                let s3 := if (s2.src src).held = some t then releaseHold src s2 else s2
                let old := (s3.thr t).arch
                let s4 := (if restore = l then id else spillLevel t restore) (curReplace t true 2 [] s3)
                let a := restoredArch (s4.thr t).arch l restore st.val pc.val
                let skip := decide (st.val.extractLsb' 30 6 = 0x0F)
                .retired (endStep 1 true (s4.modThr t fun th =>
                  { th with
                    arch := a, skip := skip, unstack := some old, pend := .none, arithMet := false, predMet := false, oldPreds := []
                    chainAt := none
                    leash := { th.leash with nest := th.leash.nest - 1 } }))
      | none, _ => .hold s1

/-! ### The ends of words in flight (R212, R279) -/

/-- A word in flight comes to its end: what does not retire is given up, and a machine check that waits for the thread goes before
the word's own exception (R279, R290), but not before a halt (R474). -/
def endFlight (t : ThreadId) : WRes → State
  | .trap x s => if mcWaits s t then discardPend t s else raiseExc t x s
  | .brk hits s => if mcWaits s t ∧ hitsHalt s t hits = false then discardPend t s else breakHit t hits (gaveUp t s)
  | r => finishWord t none r

/-- A word in flight reaches retirement with a result (R215, R467, R474). -/
def atRetirement (t : ThreadId) (hits : BitVec 8) (s : State) (r : WRes) : State :=
  endFlight t (retirePhase t hits (s.thr t).robPar (gaveUp t s) r)

/-! ### The ends of waits (R170 to R178, R181, R187) -/

/-- A GETWORK takes the item in the thread's slot: the ADDR entry a + 2 is pushed, the item becomes current, and the thread
continues at its node's entry (R181 to R184). A return stack without room faults and leaves the item in the slot. The
limit still lies on the operand stack. -/
def takeItem (t : ThreadId) (id : Nat) (s : State) : WRes :=
  match findItem s id with
  | none => .hold s
  | some it =>
    if rsRoom s t 1 = false then .trap excOver s
    else
      let pc := (s.thr t).arch.pc
      let s1 := curReplace t true 0 [PCell.of (addrEntry (pc + 2))] (popPush t 2 [] s)
      let s2 := modItem s1 id fun x => { x with
        place := .current t, taken := true, visitCyc := 0, dest := .none }
      .jump (s2.nodeOf it.node).pc <| s2.modThr t fun th => { th with
        slot := none
        cur := some id
        desc0 := it.desc0
        desc1 := it.desc1
        desc2 := it.desc2
        desc3 := it.desc3
        dl := dblOf it.deadline
        wnode := it.node
        wvisit := it.visit }

/-- What a parked thread's wait comes to now: it ends, by its event before its limit (R176), or goes on. -/
def wakeNow (t : ThreadId) (s : State) : Option WRes :=
  let th := s.thr t
  match th.pend with
  | .waitt d => if limitReached s t.core d then (endWait t 2 [] s).map .next else none
  | .wfe d =>
    if th.ev then (endWait t 2 [flagCell true] s).map fun x => .next (x.modThr t fun y => { y with ev := false })
    else if limitReached s t.core d then (endWait t 2 [flagCell false] s).map .next
    else none
  | .getwork d =>
    match th.slot with
    | some id => (ensureCur t false 2 s).map (takeItem t id)
    | none =>
      if limitReached s t.core d then
        (endWait t 2 [] s).map fun x => .next (x.modThr t fun y => { y with dl := .infinite })
      else none
  | .tag tag d =>
    match currentItem s t with
    | some it =>
      if it.tag = some (tag, .granted) then
        (endWait t 3 [flagCell true] s).map fun x => .next (modItem x it.id fun y => { y with tag := some (tag, .held) })
      else if limitReached s t.core d then
        (endWait t 3 [flagCell false] s).map fun x => .next (lodgeTag x t)
      else none
    | none => none
  | .rom (.called entry) => (endWait t 2 [] s).map fun x =>
      .next (x.modThr t fun y => { y with ev := false, arch := { y.arch with pc := entry - 1 } })
  | _ => none

/-- Let a parked thread test its wait, where it may go on (R178, R426). -/
def wake (t : ThreadId) (s : State) : State :=
  if mayWake s t then (match wakeNow t s with
    | some r => atRetirement t (pcHits s t) s r
    | none => s)
  else s

/-- Let every parked thread test its wait (R178). -/
def wakeAll (s : State) : State := threadIds.foldl (fun acc t => wake t acc) s

/-- An event for a thread: EV sets, source 320 + n rises, and a parked WFE ends (R174, R175). -/
def signalEvent (t : ThreadId) (s : State) : State :=
  wake t (raiseSrc (320 + t.val) (s.modThr t fun th => { th with ev := true }))

end Sys2Proof.Machine
end

