-- ==== Sys2Proof/Machine/Flags.lean ====
section
/-! DEFINITION. The flags of THR.ARITH, the results that set them, and the conditions of the compares (R37 to R42, R69,
R106). -/

namespace Sys2Proof.Machine

/-- Change the flags of a thread as the word that retires does: a store to THR.ARITH that drains in the cycle of the retirement wins
(R43, R116). -/
def modFlags (t : ThreadId) (f : Arith → Arith) (s : State) : State :=
  if (s.thr t).arithMet then s else s.modThr t fun th => { th with arith := f th.arith }

/-- Set the sticky bit OV where a result overflowed (R37, R41). -/
def setOv (t : ThreadId) (ov : Bool) (s : State) : State := if ov then modFlags t (fun a => { a with ov := true }) s else s

/-- Set the sticky bit DZ (R40, R41). -/
def setDz (t : ThreadId) (s : State) : State := modFlags t (fun a => { a with dz := true }) s

/-- Deliver the low 48 bits of an exact result in place of n operands, and set OV where the result lies outside the signed
range (R37). -/
def intResult (t : ThreadId) (n : Nat) (v : Int) (s : State) : WRes :=
  .next (setOv t (outsideCell v) (popPush t n [cellOfInt v] s))

/-- Deliver a time double in normal form in place of n operands, and set OV where its SEC lies outside the signed range
(R49). -/
def timeResult (t : ThreadId) (n : Nat) (v : Int) (s : State) : WRes :=
  let d := dblOf v
  .next (setOv t (secOutside v) (popPush t n [d.hi, d.lo] s))

/-- The results of a divide: quotient, remainder, and whether OV and DZ set (R38). -/
structure DivRes where
  quot : Cell
  rem : Cell
  ov : Bool
  dz : Bool
  deriving DecidableEq, Repr

/-- The signed divide (R38, R97). The quotient of −2⁴⁷ by −1 keeps its low 48 bits, which are −2⁴⁷. -/
def divSigned (a b : Cell) : DivRes :=
  if b = 0 then { quot := BitVec.allOnes 48, rem := a, ov := false, dz := true }
  else
    let q := a.toInt.tdiv b.toInt
    { quot := cellOfInt q, rem := cellOfInt (a.toInt.tmod b.toInt), ov := outsideCell q, dz := false }

/-- The unsigned divide (R38, R97). -/
def divUnsigned (a b : Cell) : DivRes :=
  if b = 0 then { quot := BitVec.allOnes 48, rem := a, ov := false, dz := true }
  else { quot := BitVec.ofNat 48 (a.toNat / b.toNat), rem := BitVec.ofNat 48 (a.toNat % b.toNat), ov := false, dz := false }

/-- Carry out a divide that delivers given cells: a zero divisor traps when DZ_TRAP is 1 and sets DZ otherwise
(R40). -/
def divResult (t : ThreadId) (r : DivRes) (ov : Bool) (vs : List Cell) (s : State) : WRes :=
  if r.dz then
    (if (s.thr t).arith.dzTrap then .trap { cause := 0x0C, sub := 0, addr := 0 } s
     else .next (setDz t (popPush t 2 vs s)))
  else .next (setOv t ov (popPush t 2 vs s))

/-- Is a cond field or predicate number one of a FIELD encoding (R69, R73)? -/
def cmpField (cond : BitVec 3) (k : BitVec 2) : Bool := decide (6 ≤ cond.toNat ∨ k = 0)

/-- The truth of "a cond b" (R69, R106). -/
def condHolds (cond : BitVec 3) (a b : Cell) : Bool :=
  match cond.toNat with
  | 0 => decide (a = b)
  | 1 => decide (a ≠ b)
  | 2 => decide (a.toInt < b.toInt)
  | 3 => decide (a.toInt ≤ b.toInt)
  | 4 => decide (a.toNat < b.toNat)
  | _ => decide (a.toNat ≤ b.toNat)

/-- Write a predicate of a thread as the word that retires does: a store to THR.PRED that drains in the cycle of the retirement wins
(R57, R106, R107, R116). Guards of younger words that were read before a drain have it through the bypass (R201). -/
def putPred (t : ThreadId) (k : BitVec 2) (b : Bool) (s : State) : State :=
  s.modThr t fun th =>
    { th with
      oldPreds := th.oldPreds.map (·.setPred k b)
      arch := if th.predMet then th.arch else th.arch.setPred k b }

end Sys2Proof.Machine
end

