-- ==== Sys2Proof/Machine/Arith.lean ====
section
/-! DEFINITION. Integer arithmetic (R94 to R98). -/

namespace Sys2Proof.Machine

/-- An instruction ( a b -- r ) whose result is an exact integer cut to a cell (R37). -/
def arith2 (t : ThreadId) (f : Cell → Cell → Int) : WordSem := WordSem.plain 2 1 fun cs s => match cs with
  | b :: a :: _ => intResult t 2 (f a.val b.val) s
  | _ => .hold s

/-- An instruction ( a -- r ) whose result is an exact integer cut to a cell (R38). -/
def arith1 (t : ThreadId) (f : Cell → Int) : WordSem := WordSem.plain 1 1 fun cs s => match cs with
  | a :: _ => intResult t 1 (f a.val) s
  | [] => .hold s

/-- A divide: both results, quotient on top, or the remainder alone, which sets no OV (R38, R97). -/
def divide (t : ThreadId) (both : Bool) (f : Cell → Cell → DivRes) : WordSem :=
  WordSem.plain 2 (if both then 2 else 1) fun cs s => match cs with
  | b :: a :: _ =>
    let r := f a.val b.val
    divResult t r (both && r.ov) (if both then [r.quot, r.rem] else [r.rem]) s
  | _ => .hold s

/-- ADD ( a b -- a+b ) (R95). -/
def semAdd (t : ThreadId) : WordSem := arith2 t fun a b => a.toInt + b.toInt
def execAdd (t : ThreadId) (g : Guard) (s : State) : Host.Outcome State Fault Refusal := .next (runWord t g (semAdd t) s)

/-- SUB ( a b -- a−b ) (R95). -/
def semSub (t : ThreadId) : WordSem := arith2 t fun a b => a.toInt - b.toInt
def execSub (t : ThreadId) (g : Guard) (s : State) : Host.Outcome State Fault Refusal := .next (runWord t g (semSub t) s)

/-- MUL ( a b -- p ), the signed product (R95). -/
def semMul (t : ThreadId) : WordSem := arith2 t fun a b => a.toInt * b.toInt
def execMul (t : ThreadId) (g : Guard) (s : State) : Host.Outcome State Fault Refusal := .next (runWord t g (semMul t) s)

/-- MULD ( a b -- d ), the exact signed product as a double, high cell on top (R96). -/
def semMuld (t : ThreadId) : WordSem := WordSem.plain 2 2 fun cs s => match cs with
  | b :: a :: _ =>
    let p := a.val.toInt * b.val.toInt
    .next (popPush t 2 [cellOfInt (p / 2 ^ 48), cellOfInt p] s)
  | _ => .hold s
def execMuld (t : ThreadId) (g : Guard) (s : State) : Host.Outcome State Fault Refusal := .next (runWord t g (semMuld t) s)

/-- DIV ( a b -- rem quot ), signed (R97). -/
def semDiv (t : ThreadId) : WordSem := divide t true divSigned
def execDiv (t : ThreadId) (g : Guard) (s : State) : Host.Outcome State Fault Refusal := .next (runWord t g (semDiv t) s)

/-- DIVU ( a b -- rem quot ), unsigned (R97). -/
def semDivu (t : ThreadId) : WordSem := divide t true divUnsigned
def execDivu (t : ThreadId) (g : Guard) (s : State) : Host.Outcome State Fault Refusal := .next (runWord t g (semDivu t) s)

/-- MOD ( a b -- rem ), signed; it sets no OV (R97). -/
def semMod (t : ThreadId) : WordSem := divide t false divSigned
def execMod (t : ThreadId) (g : Guard) (s : State) : Host.Outcome State Fault Refusal := .next (runWord t g (semMod t) s)

/-- MODU ( a b -- rem ), unsigned (R97). -/
def semModu (t : ThreadId) : WordSem := divide t false divUnsigned
def execModu (t : ThreadId) (g : Guard) (s : State) : Host.Outcome State Fault Refusal := .next (runWord t g (semModu t) s)

/-- NEG ( a -- −a ) (R98). -/
def semNeg (t : ThreadId) : WordSem := arith1 t fun a => -a.toInt
def execNeg (t : ThreadId) (g : Guard) (s : State) : Host.Outcome State Fault Refusal := .next (runWord t g (semNeg t) s)

/-- ABS ( a -- |a| ) (R98). -/
def semAbs (t : ThreadId) : WordSem := arith1 t fun a => a.toInt.natAbs
def execAbs (t : ThreadId) (g : Guard) (s : State) : Host.Outcome State Fault Refusal := .next (runWord t g (semAbs t) s)

end Sys2Proof.Machine
end

