-- ==== Sys2Proof/Machine/FetchOps.lean ====
section
/-! DEFINITION. Which item may go to which thread (R13, R14, R364), and the masks the fetch unit shows (R367). -/

namespace Sys2Proof.Machine

/-- Does an item occupy, or wait in a fetch slot for, an entry of the heel: it is in flight, or in a slot and not yet taken? -/
def Item.heelEntry (it : Item) : Bool :=
  it.inFlight || (match it.place with
    | .slot _ => true
    | _ => false)

/-- Has the heel an entry for an item: one of the 1,024 that R1 gives it (R14, R392), in which it stands already or that no item occupies
or waits for? That an item waits in its queue for an entry is a DESIGN CHOICE (notes/assumptions/120.md). -/
def heelHasRoom (s : State) (it : Item) : Bool := it.heelEntry || decide ((s.fetch.items.filter Item.heelEntry).length < 1024)

/-- R14 and R1: may an item enter a fetch slot? While the heel holds 896 items or more in flight, only one that is in flight, the oldest
of its flow or one of a FREE flow. -/
def heelAllows (s : State) (it : Item) : Bool :=
  let f := s.flow it.flow
  (decide (inflight s < 896) || it.taken || f.free || decide (it.seq = f.nextr)) && heelHasRoom s it

/-- May an item's next visit run on a core, so far as admission settled it: a first visit on the booked core; a visit of an item with a
token on the token's core; every visit of an item that was booked on no core and took no token, on any core, the later ones by the
model's reading; and every other visit on a normal core (R364, R370 to R373). DEDUCED (notes/assumptions/41.md). -/
def admittedTo (it : Item) (c : CoreId) (det : Bool) : Bool :=
  match it.token with
  | some d => decide (d = c)
  | none =>
    if it.anyCore then true
    else if it.firstDone then !det
    else match it.firstCore with
      | some d => decide (d = c)
      | none => !det

/-- Is an item dispatchable to a thread (R364)? -/
def dispatchable (s : State) (t : ThreadId) (it : Item) : Bool :=
  let n := s.nodeOf it.node
  let k := s.cor t.core
  let th := s.thr t
  n.cores.getLsbD t.core.val &&
    (List.range 4).all (fun i => !n.aff.getLsbD i || helperPresent s i) &&
    k.enabled && !k.fenced && k.inReset.isNone && th.en && !th.stopped && heelAllows s it && admittedTo it t.core k.act

/-- The level of an item's visit: its descriptor's PRIO for the first one, and after a transfer or a replay the PRIO that its node has
when the slot is filled (R356, R363). -/
def visitPrio (s : State) (it : Item) : BitVec 3 := it.prio.getD (s.nodeOf it.node).prio

/-- Does item a rank above item b for a fetch slot (R13)? -/
def outranks (s : State) (a b : Item) : Bool :=
  decide (visitPrio s b < visitPrio s a ∨ (visitPrio s a = visitPrio s b ∧ a.elig < b.elig))

/-- Is a thread parked in GETWORK? -/
def inGetwork (th : Thread) : Bool :=
  match th.pend with
  | .getwork _ => true
  | _ => false

/-- FETCH_WANT and FETCH.STATUS.HUNGRY (R367). -/
def hungry (s : State) : BitVec 16 :=
  coreIds.foldl (fun acc c =>
    if (coreThreads c).any (fun t => inGetwork (s.thr t) && (s.thr t).slot.isNone &&
        !(s.fetch.items.any fun it => decide (it.place = .queued) && dispatchable s t it))
    then acc ||| (1#16 <<< c.val) else acc) 0

end Sys2Proof.Machine
end

