-- ==== Sys2Proof/Machine/Regs.lean ====
section
/-! DEFINITION. The register map: where a register stands, who may read and write it, and what a read returns and does
(chapter 18 and the tables it names). Stores to registers are in Machine/RegStore.lean. -/

namespace Sys2Proof.Machine

/-- A register: its block and its cell index (R494, R495). -/
inductive RegRef where
  | tile (k : Nat)
  | core (c : CoreId) (k : Nat)
  | thread (t : ThreadId) (k : Nat)
  deriving DecidableEq, Repr

/-- Does a cell of the tile block hold a register (R502)? -/
def tileMapped (k : Nat) : Bool :=
  decide (k ≤ 10 ∨ (16 ≤ k ∧ k ≤ 25) ∨ (32 ≤ k ∧ k ≤ 39) ∨ (48 ≤ k ∧ k ≤ 54) ∨ k = 64 ∨ k = 65 ∨ (72 ≤ k ∧ k ≤ 75) ∨
    (128 ≤ k ∧ k ≤ 213) ∨ (256 ≤ k ∧ k ≤ 259) ∨ (272 ≤ k ∧ k ≤ 287) ∨ (320 ≤ k ∧ k ≤ 326) ∨ (384 ≤ k ∧ k ≤ 390) ∨
    (400 ≤ k ∧ k ≤ 404) ∨ (448 ≤ k ∧ k ≤ 456) ∨ (1024 ≤ k ∧ k ≤ 1535) ∨ (2048 ≤ k ∧ k ≤ 2559) ∨ (4096 ≤ k ∧ k ≤ 4607) ∨
    (8195 ≤ k ∧ k ≤ 9151))

/-- Does a register exist (R494, R502)? -/
def RegRef.mapped : RegRef → Bool
  | .tile k => tileMapped k
  | .core _ k => decide (k < 36)
  | .thread _ k => decide (k < 41)

/-- The cell index of an address in a block whose first cell stands at f. -/
def cellIndex (f a : Nat) : Option Nat := if f ≤ a then some ((a - f) / 6) else none

/-- First-cell offset of core block c (R494). -/
def coreFirst (c : Nat) : Nat := if c % 3 = 0 then 4 else if c % 3 = 1 then 0 else 2
/-- First-cell offset of thread block n (R494). -/
def threadFirst (n : Nat) : Nat := if n % 3 = 0 then 0 else if n % 3 = 1 then 2 else 4

/-- The register that holds a byte of register space, for a thread or (none) the Whistle port, which has no aliases
(R494 to R496). None where the byte is unmapped. -/
def regAt (who : Option ThreadId) (a : Nat) : Option RegRef :=
  let r : Option RegRef :=
    if 0x40000000 ≤ a ∧ a < 0x40100000 then (cellIndex 0x40000002 a).map RegRef.tile
    else if h : 0x40100000 ≤ a ∧ a < 0x40110000 then
      let c : CoreId := ⟨(a - 0x40100000) / 0x1000, by omega⟩
      (cellIndex (0x40100000 + 0x1000 * c.val + coreFirst c.val) a).map (RegRef.core c)
    else if h : 0x40200000 ≤ a ∧ a < 0x40208000 then
      let t : ThreadId := ⟨(a - 0x40200000) / 0x100, by omega⟩
      (cellIndex (0x40200000 + 0x100 * t.val + threadFirst t.val) a).map (RegRef.thread t)
    else match who with
      | some t =>
        if 0x40300000 ≤ a ∧ a < 0x40300100 then (cellIndex 0x40300002 a).map (RegRef.thread t)
        else if 0x40310000 ≤ a ∧ a < 0x40311000 then (cellIndex 0x40310004 a).map (RegRef.core t.core)
        else none
      | none => none
  r.filter RegRef.mapped

/-- The first byte address of a register in its real block (R495). -/
def RegRef.addr : RegRef → Nat
  | .tile k => 0x40000002 + 6 * k
  | .core c k => 0x40100000 + 0x1000 * c.val + coreFirst c.val + 6 * k
  | .thread t k => 0x40200000 + 0x100 * t.val + threadFirst t.val + 6 * k

/-! ### Access rights (R498, R499, R502) -/

/-- May a level of a thread read a register? -/
def mayRead (l : Level) (t : ThreadId) : RegRef → Bool
  | .tile k =>
    if (48 ≤ k ∧ k ≤ 54) ∨ k = 64 ∨ k = 65 ∨ (72 ≤ k ∧ k ≤ 75) ∨ (128 ≤ k ∧ k ≤ 213) ∨ k = 326 ∨ k = 448 ∨
        (450 ≤ k ∧ k ≤ 456) then decide (l = .M) else true
  | .core c k => if 17 ≤ k ∧ k ≤ 19 then decide (l = .M) || decide (t.core = c) else true
  | .thread n k =>
    if k = 39 then decide (l = .M)
    else if 18 ≤ k ∧ k ≤ 20 ∧ n = t then decide (k - 18 ≤ levelNum l)
    else decide (l = .M) || decide (n = t)

/-- Is a register one that holds no field a store changes (R498, code —)? -/
def readOnly : RegRef → Bool
  | .tile k => decide (k = 0 ∨ (21 ≤ k ∧ k ≤ 24) ∨ k = 49 ∨ (52 ≤ k ∧ k ≤ 54) ∨ k = 73 ∨ k = 74 ∨ (128 ≤ k ∧ k ≤ 213) ∨
      k = 259 ∨ (272 ≤ k ∧ k ≤ 287) ∨ k = 323 ∨ k = 324 ∨ k = 326 ∨ (402 ≤ k ∧ k ≤ 404) ∨ k = 448 ∨ (450 ≤ k ∧ k ≤ 456))
  | .core _ k => decide (k = 0 ∨ k = 14)
  | .thread _ k => decide (k = 1 ∨ k = 5 ∨ (11 ≤ k ∧ k ≤ 20) ∨ k = 37 ∨ k = 38 ∨ k = 40)

/-- The registers of R470: a store to them from any level is ignored and raises nothing (R499). -/
def runControlReg : RegRef → Bool
  | .tile k => decide (48 ≤ k ∧ k ≤ 54)
  | .core _ _ => false
  | .thread _ k => decide (k = 39)

/-- May a level of a thread store a value to a register without a privilege exception? The stores that R499 lists as ignored
raise nothing either. -/
def mayStore (l : Level) (t : ThreadId) (v : Cell) (r : RegRef) : Bool :=
  if runControlReg r then true
  else if readOnly r then mayRead l t r
  else match r with
    | .tile _ => decide (l = .M)
    | .core c k =>
      if k = 2 ∨ k = 4 then decide (l ≠ .T)
      else if 17 ≤ k ∧ k ≤ 19 then decide (l = .M) || decide (t.core = c)
      else if k = 13 then decide (l = .M) || v.getLsbD 2
      else decide (l = .M)
    | .thread n k =>
      if k = 0 ∨ k = 9 ∨ (25 ≤ k ∧ k ≤ 32) ∨ k = 35 ∨ k = 36 then decide (l = .M)
      else if (21 ≤ k ∧ k ≤ 24) ∨ k = 33 ∨ k = 34 then decide (l = .M) || (decide (l = .S) && decide (n = t))
      else decide (l = .M) || decide (n = t)

/-! ### What a register shows -/

/-- A bit in its place in a cell. -/
def bitAt (b : Bool) (i : Nat) : Cell := if b then 1#48 <<< i else 0
/-- A field in its place in a cell. -/
def fieldAt {w : Nat} (v : BitVec w) (i : Nat) : Cell := v.setWidth 48 <<< i
/-- A number in its place in a cell, cut to w bits. -/
def natAt (w n i : Nat) : Cell := (BitVec.ofNat w n).setWidth 48 <<< i

/-- The state the life-cycle marks give: the highest mark that reads as set in at least two of its three cells (R489). -/
def markSet (s : State) (k cell : Nat) : Bool :=
  match peekSpan s .normal (0xF0000000 + 6 * cell) 6 with
  | .ok bs => decide (bytesNat bs ≠ 0)
  | _ => decide (k = k)

def markAt (s : State) (k : Nat) : Bool :=
  decide (2 ≤ ([k - 1, k + 3, k + 7].filter (markSet s k)).length)

def lcStateOf (s : State) : BitVec 3 :=
  if markAt s 4 then 4 else if markAt s 3 then 3 else if markAt s 2 then 2 else if markAt s 1 then 1 else 0

/-- n stored bytes as the life-cycle logic takes them. -/
def logicBytes (s : State) (a n : Nat) : List Byte := (span a n).map fun x =>
  match classify (rawByte s .normal x) with
  | .clear => 0
  | .good d => d
  | .ce d => d
  | _ => Config.unreadByte x

/-- The failure count of R489. What the spec leaves open of a byte that cannot be read is a free value (DESIGN CHOICE,
notes/assumptions/133.md). -/
def lcFails (s : State) : Nat := min 15 (bytesNat (logicBytes s (0xF0000000 + 6 * 33) 6))

/-- CORE.IDENT (R79). -/
def coreIdent (s : State) (c : CoreId) : Cell :=
  0x038000000000 ||| natAt 4 8 35 ||| natAt 4 c.val 31 ||| bitAt s.help.chPresent 4 ||| fieldAt s.help.ready 0

/-- CORE.MODE (R224). -/
def coreMode (k : Core) : Cell := fieldAt k.rrlen 8 ||| bitAt k.act 1 ||| bitAt k.det 0

/-- CORE.BORROW (R314). -/
def borrowCell (w : Borrow) : Cell :=
  bitAt w.active 47 ||| bitAt w.copying 46 ||| bitAt w.refused 45 ||| fieldAt w.owner 38 ||| fieldAt w.base 10

/-- STAGE of a watchdog (R472). -/
def stageCode : WdgStage → BitVec 2
  | .off => 0
  | .bark => 1
  | .bite => 2

/-- A core register's value (R502). -/
def corePeek (s : State) (c : CoreId) (n : Nat) : Cell :=
  let k := s.cor c
  match n with
  | 0 => coreIdent s c
  | 1 => coreMode k
  | 2 => bitAt k.w12 0
  | 3 => 0
  | 4 => fieldAt k.vbaseT 9
  | 5 => fieldAt k.vbaseS 9
  | 6 => fieldAt k.vbaseM 9
  | 7 => fieldAt k.xfloor 0
  | 8 => fieldAt k.mlo 8 ||| fieldAt k.slo 0
  | 9 => borrowCell k.borrow
  | 10 => fieldAt k.leashM 24 ||| fieldAt k.leashS 12 ||| fieldAt k.leashT 0
  | 11 => fieldAt k.leashTrap 0
  | 12 => fieldAt k.wdg.bark 24 ||| fieldAt k.wdg.bite 0
  | 13 => bitAt k.wdg.scope 3 ||| fieldAt (stageCode k.wdg.stage) 0
  | 14 => fieldAt k.wdg.count 0
  | 15 => bitAt k.brkhalt 0
  | 16 => bitAt k.csValid 8 ||| fieldAt k.csHit 0
  | 17 => k.txd
  | 18 => k.rxd
  | 19 => bitAt k.txlost 2 ||| bitAt k.txfull 1 ||| bitAt k.rxfull 0
  | n => if n % 2 = 0 then fieldAt (k.cmpa.getD ((n - 20) / 2) 0) 0 else k.cmpb.getD ((n - 20) / 2) 0

/-- THR.OSLIM or THR.RSLIM (R233). -/
def limCell (k : Stk) : Cell := fieldAt k.lo 24 ||| fieldAt k.hi 0
/-- THR.OSPTR or THR.RSPTR (R233). -/
def ptrCell (k : Stk) : Cell := fieldAt k.base 24 ||| natAt 5 k.res.length 17 ||| fieldAt k.sp 0

/-- THR.GLINK (R243). -/
def glinkCell (g : GLink) : Cell :=
  bitAt g.valid 47 ||| fieldAt (levelBits g.caller) 45 ||| fieldAt g.nres 43 ||| fieldAt g.frames 30 |||
    fieldAt g.gate 22 ||| fieldAt g.rpc 0

/-- The destination fields of THR.WORK (R184). -/
def destCell : Dest → Cell
  | .none => 0
  | .node k => natAt 2 1 42 ||| fieldAt k 32
  | .port p => natAt 2 2 42 ||| fieldAt p 32

/-- THR.WORK (R184): a request that a TAG still waits with is neither withdrawn nor timed out. With no current item NODE and VISIT
show the last visit's. DESIGN CHOICE (notes/assumptions/85.md). -/
def workCell (s : State) (t : ThreadId) : Cell :=
  let th := s.thr t
  let v := fieldAt th.wnode 24 ||| fieldAt th.wvisit 16
  match currentItem s t with
  | none => v
  | some it =>
    let held := match it.tag with
      | some (_, .held) => true
      | _ => false
    let parked := match th.pend with
      | .tag _ _ => true
      | _ => false
    let lodged := match it.tag with
      | some (_, .lodged) => !parked
      | some (_, .granted) => !parked
      | _ => false
    v ||| bitAt true 47 ||| bitAt held 46 ||| bitAt lodged 45 ||| bitAt it.launch.isSome 44 ||| destCell it.dest

/-- The source a read of TIC.CLAIM returns for a thread, if one qualifies (R275). -/
def claimSource (s : State) (t : ThreadId) : Option Nat :=
  let a := (s.thr t).arch
  bestSource s fun i =>
    let x := s.src i
    srcExists i && x.pend && decide (x.prio ≠ 0) && decide (a.ipl ≤ x.prio) && inTarget s i t && decide (x.lvl = a.level) &&
      decide (x.held = none ∨ x.held = some t)

/-- TIC.CLAIM's value (R275). -/
def claimCell (s : State) (t : ThreadId) : Cell :=
  match claimSource s t with
  | some i => fieldAt (s.src i).prio 12 ||| natAt 9 i 0
  | none => 0

/-- A stack register of a thread: n counts from THR.OSLIM.T (R502). -/
def stackCell (a : Arch) (n : Nat) : Cell :=
  let k := a.stk (if n < 4 then .T else if n < 8 then .S else .M)
  match n % 4 with
  | 0 => limCell k.os
  | 1 => ptrCell k.os
  | 2 => limCell k.rs
  | _ => ptrCell k.rs

/-- A thread register's value (R502). -/
def threadPeek (s : State) (t : ThreadId) (n : Nat) : Cell :=
  let th := s.thr t
  let a := th.arch
  match n with
  | 0 => bitAt th.en 10 ||| bitAt th.stopped 9 ||| fieldAt (parkCode th.pend) 6 ||| bitAt a.handler 5 ||| fieldAt (levelBits a.level) 0
  | 1 => fieldAt s.node 7 ||| natAt 7 t.val 0
  | 2 => bitAt th.arith.dzTrap 2 ||| bitAt th.arith.dz 1 ||| bitAt th.arith.ov 0
  | 3 => bitAt a.p3 3 ||| bitAt a.p2 2 ||| bitAt a.p1 1 ||| 1
  | 4 => bitAt a.mcact 4 ||| fieldAt a.ipl 0
  | 5 => claimCell s t
  | 6 => bitAt th.ev 0
  | 7 => bitAt th.sfar.valid 47 ||| bitAt th.sfar.more 46 ||| fieldAt th.sfar.cause 44 ||| fieldAt th.sfar.addr 0
  | 8 => fieldAt th.semGroup 44 ||| fieldAt th.semTimeout 0
  | 9 => bitAt th.grant 0
  | 10 => fieldAt (levelBits th.leash.lvl) 16 ||| bitAt th.leash.on 15 ||| bitAt th.leash.ovrpend 14 |||
      bitAt th.leash.ovr 13 ||| bitAt th.leash.clamp 12 ||| fieldAt th.leash.count 0
  | 11 => workCell s t
  | 12 => th.desc0
  | 13 => th.desc1
  | 14 => th.desc2
  | 15 => th.desc3
  | 16 => th.dl.hi
  | 17 => th.dl.lo
  | 18 => th.xrecT
  | 19 => th.xrecS
  | 20 => th.xrecM
  | 33 => fieldAt th.dwloT 0
  | 34 => fieldAt th.dwhiT 0
  | 35 => fieldAt th.dwloS 0
  | 36 => fieldAt th.dwhiS 0
  | 37 => glinkCell a.glS
  | 38 => glinkCell a.glM
  | 39 => bitAt th.skip 20 ||| fieldAt a.pc 0
  | 40 => th.rstinfo
  | n => if 21 ≤ n ∧ n ≤ 32 then stackCell a (n - 21) else 0

/-- An ECC log entry as its register shows it (R338). -/
def eccCell : List EccEntry → Cell
  | [] => 0
  | e :: _ => bitAt true 47 ||| bitAt e.prog 46 ||| fieldAt e.lane 43 ||| fieldAt e.syn 37 ||| bitAt e.wr 36 ||| fieldAt e.addr 0

/-- HEEL.LOSSLOG's head (R391). -/
def lossCell : List LossEntry → Cell
  | [] => 0
  | e :: _ => bitAt true 47 ||| fieldAt e.cause 45 ||| fieldAt e.core 41 ||| fieldAt e.flow 24 ||| fieldAt e.seq 0

/-- First byte address of SH's step n (R342, R344). -/
def shPos (n : Nat) : Nat := if n = 0 then 0x10000000 else 0x10000002 + 6 * (n - 1)

/-- The state code of a flow (R361). -/
def flowCode : FlowState → BitVec 2
  | .idle => 0
  | .active => 1
  | .leaving => 2
  | .arriving => 3

/-- CORELVL (R441). -/
def coreLevels (s : State) : Cell :=
  coreIds.foldl (fun acc c =>
    let k := s.cor c
    let v : Nat := if k.enabled = false then 3 else match k.rest with
      | .run => 0
      | .nap => 1
      | .doze => 2
    acc ||| natAt 2 v (2 * c.val)) 0

/-- MODE of TK.CTL (R163). -/
def tkModeCode : TkMode → BitVec 2
  | .free => 0
  | .capture => 1
  | .follow => 2

/-- A node's ORD (R354). -/
def ordCode : NodeOrd → BitVec 2
  | .ordered => 0
  | .atomicTag => 1
  | .free => 2

def nodeA (n : Node) : Cell :=
  bitAt n.en 47 ||| fieldAt (ordCode n.ord) 45 ||| bitAt n.replay 44 ||| fieldAt n.prio 41 ||| fieldAt n.budget 32 |||
    fieldAt n.cost 23 ||| fieldAt n.pc 0

def nodeB (n : Node) : Cell := fieldAt n.cores 32 ||| fieldAt n.aff 28 ||| fieldAt n.pathb 19 ||| fieldAt n.pathw 10

/-- TIC.SRC[i] (R267). HOLDER reads 0 while HELD is 0 (DESIGN CHOICE, notes/assumptions/108.md). -/
def srcCell (s : State) (i : Nat) : Cell :=
  if srcExists i then
    let x := s.src i
    bitAt x.pend 47 ||| bitAt (srcAon i) 45 ||| bitAt x.held.isSome 44 |||
      natAt 7 ((x.held.map (·.val)).getD 0) 37 ||| fieldAt x.wclass 12 ||| fieldAt (levelBits x.lvl) 8 ||| fieldAt x.prio 0
  else 0

/-- TIC.TGT0 to TIC.TGT2 of a source (R268). -/
def tgtCell (x : Src) (j : Nat) : Cell :=
  match j with
  | 0 => x.tgt.extractLsb' 0 48
  | 1 => x.tgt.extractLsb' 48 48
  | _ => (x.tgt.extractLsb' 96 32).setWidth 48

/-- TIC.MCSTAT (R286). -/
def mcstatCell (s : State) : Cell :=
  bitAt s.tic.mcPend 47 ||| bitAt s.tic.mcMore 46 ||| fieldAt s.tic.mcReason 42 ||| fieldAt s.tic.mcCore 38 |||
    fieldAt s.tic.mcThread 31 ||| fieldAt (fenceBits s) 0

/-- DBG.TOS: the top operand cell of the selected thread's running level, 0 at depth 0 (R470). -/
def tosCell (s : State) : Cell :=
  let t : ThreadId := ⟨s.dbg.sel.toNat % 128, Nat.mod_lt _ (by decide)⟩
  let k := s.stk t (curLevel s t) false
  match k.res with
  | c :: _ => c.val
  | [] =>
    if k.depth ≤ 0 then 0
    else bytesCell ((List.range 6).map fun j => (fillByte s t ((k.sp - 6).toNat + j)).1.1)

/-- The tokens of a deterministic core in use (R371, R373). -/
def tokensUsed (s : State) (c : CoreId) : Nat := (s.fetch.items.filter fun it => decide (it.token = some c)).length

/-- FETCH.LOAD: TOKENS, and BOOKED, of which a larger sum shows its low 16 bits, as FETCH.TLOAD shows its low 20 (R373).
DESIGN CHOICE (notes/assumptions/119.md). -/
def loadCell (s : State) (c : CoreId) : Cell :=
  natAt 4 (tokensUsed s c) 16 ||| natAt 16 (s.fetch.ledgers.getD c.val []).sum 0

/-- The tile registers below cell 128. -/
def tilePeekLow (s : State) (n : Nat) : Cell :=
  match n with
  | 0 => 0x6AFB16304000 ||| fieldAt s.node 0
  | 1 => fieldAt s.fab.timeout 0
  | 2 => bitAt s.ecc.legacy 0
  | 3 => fieldAt s.help.chto 20 ||| bitAt s.help.detres 0
  | 4 => bitAt s.help.chtoFlag 0
  | 6 => fieldAt s.knl.trig 2 ||| bitAt s.knl.wiping 1 ||| bitAt s.knl.done 0
  | 7 => bitAt (!s.ks.todo.isEmpty) 2 ||| bitAt s.ks.refused 1 ||| bitAt s.ks.done 0
  | 9 => bitAt s.lc.busy 47 ||| bitAt s.lc.refused 46 ||| bitAt s.lc.unlocked 45 ||| natAt 4 (lcFails s) 41 ||| fieldAt s.lc.stateOut 0
  | 10 => fieldAt s.grace 0
  | 16 => s.tk.incr
  | 17 => fieldAt s.tk.slew 5 ||| fieldAt (tkModeCode s.tk.mode) 2
  | 18 => s.tk.adj
  | 19 => s.tk.stephi
  | 20 => s.tk.steplo
  | 21 => s.tk.ppshi
  | 22 => s.tk.ppslo
  | 23 => s.tk.bushi
  | 24 => s.tk.buslo
  | 25 => bitAt (decide (s.tk.adj ≠ 0)) 4 ||| bitAt s.tk.steperr 3 ||| bitAt s.tk.buserr 2 ||| bitAt s.tk.miss 1 ||| bitAt s.tk.pps 0
  | 32 => fieldAt s.pwr.dozedly 32 ||| fieldAt s.pwr.napdly 16 ||| fieldAt s.pwr.descwc 4 ||| bitAt s.pwr.offen 3 |||
      bitAt s.pwr.sleepen 2 ||| bitAt s.pwr.dozeen 1 ||| bitAt s.pwr.napen 0
  | 33 => bitAt s.pwr.proferr 47 ||| bitAt s.pwr.refused 46 ||| fieldAt s.profIdx 44 ||| bitAt s.pwr.loading 43 |||
      fieldAt s.pwr.last 40 ||| bitAt s.dbg.attached 39 ||| bitAt s.pwr.hostwake 38 ||| coreLevels s
  | 34 => fieldAt s.pwr.sel 0
  | 35 => fieldAt (s.pwr.tol.getD 0 0) 0
  | 36 => fieldAt (s.pwr.tol.getD 1 0) 0
  | 37 => fieldAt (s.pwr.tol.getD 2 0) 0
  | 38 => fieldAt (s.pwr.tol.getD 3 0) 0
  | 39 => fieldAt s.help.off 0
  | 48 => bitAt s.dbg.rsthalt 6
  | 49 => bitAt s.dbg.attached 47 ||| bitAt s.dbg.halted 46 ||| bitAt s.dbg.halting 45 ||| fieldAt s.dbg.cause 42 |||
      fieldAt s.dbg.thread 35 ||| fieldAt s.dbg.comp 32 ||| fieldAt s.dbg.stepst 29
  | 50 => bitAt s.dbg.selReady 47 ||| bitAt s.dbg.selRefused 46 ||| fieldAt s.dbg.sel 0
  | 52 => bitAt s.dbg.istDone 47 ||| bitAt s.dbg.istExc 46 ||| bitAt s.dbg.istRefused 45 ||| fieldAt s.dbg.istCause 39 |||
      fieldAt s.dbg.istSub 35
  | 53 => fieldAt s.dbg.iaddr 0
  | 54 => tosCell s
  | 64 => bitAt s.ecc.enSp 7 ||| bitAt s.ecc.enKn 6 ||| bitAt s.ecc.enSh 5 ||| fieldAt s.ecc.rate 0
  | 65 => bitAt s.ecc.pass 47 ||| natAt 36 (shPos (s.ecc.walk.getD 0 0)) 0
  | 72 => natAt 4 s.ecc.uelog.length 9 ||| natAt 5 s.ecc.celog.length 4 ||| bitAt s.ecc.sat 3 ||| bitAt s.ecc.ueovf 2 |||
      bitAt s.ecc.ceovf 1 ||| bitAt s.ecc.poisoned 0
  | 73 => eccCell s.ecc.celog
  | 74 => eccCell s.ecc.uelog
  | 75 => bitAt s.ecc.clearBusy 7 ||| fieldAt s.ecc.clearBank 0
  | _ => 0

/-- The selected ternary entry's committed value (R412). -/
def selTern (s : State) : Tern := smGet Tern.boot s.help.tern s.help.tsel.toNat
/-- The selected stream (R415). -/
def selStream (s : State) : Stream := smGet Stream.boot s.help.streams s.help.seqSel.toNat

/-- The tile registers from cell 128 on. -/
def tilePeekHigh (s : State) (n : Nat) : Cell :=
  let f := s.flow s.heel.flowsel
  match n with
  | 256 => bitAt s.fetch.admitOn 4 ||| fieldAt s.fetch.xshare 0
  | 257 => bitAt s.fetch.decl 32 ||| bitAt s.fetch.refuse 31 ||| bitAt (decide (watermark s ≤ qcount s)) 30 |||
      fieldAt (hungry s) 13 ||| natAt 13 (qcount s) 0
  | 258 => fieldAt s.fetch.wm 0
  | 259 => natAt 20 s.fetch.transfer.sum 0
  | 320 => fieldAt s.heel.stuck 0
  | 321 => bitAt s.heel.drained 19 ||| bitAt s.heel.late 18 ||| bitAt s.heel.lossovf 17 ||| natAt 6 s.heel.losslog.length 11 |||
      natAt 11 (inflight s) 0
  | 322 => fieldAt s.heel.flowsel 0
  | 323 => fieldAt (flowCode f.state) 46 ||| bitAt f.free 45 ||| bitAt f.fresh 44 ||| natAt 10 (min 1023 f.infl) 34 ||| fieldAt f.nextr 0
  | 324 => fieldAt f.nexta 0
  | 326 => lossCell s.heel.losslog
  | 384 => bitAt s.help.lkpEn 47 ||| fieldAt s.help.lkpBase 0
  | 385 => fieldAt s.help.tsel 0
  | 386 => (selTern s).keyhi
  | 387 => (selTern s).keylo
  | 388 => (selTern s).mskhi
  | 389 => (selTern s).msklo
  | 390 => bitAt (selTern s).valid 47 ||| fieldAt (selTern s).data 0
  | 400 => fieldAt s.help.seqSel 0
  | 401 => bitAt (selStream s).en 47 ||| fieldAt (selStream s).hlenm1 12 ||| fieldAt (selStream s).timeout 0
  | 402 => bitAt (selStream s).takeany 47 |||
      bitAt (s.help.seqPend.any fun p => decide (p.stream = s.help.seqSel)) 46 ||| fieldAt (selStream s).recseq 0
  | 403 => ((selStream s).hist.extractLsb' 48 16).setWidth 48
  | 404 => (selStream s).hist.extractLsb' 0 48
  | 448 => mcstatCell s
  | 449 => fieldAt s.tic.mctgt 0
  | n =>
    if 128 ≤ n ∧ n ≤ 213 then natAt 16 (s.ecc.cecnt.getD (n - 128) 0).toNat 0
    else if h : 272 ≤ n ∧ n ≤ 287 then loadCell s ⟨n - 272, by omega⟩
    else if 450 ≤ n ∧ n ≤ 456 then (s.tic.latches >>> (48 * (n - 450))).setWidth 48
    else if 1024 ≤ n ∧ n ≤ 1535 then
      let x := smGet Node.boot s.fetch.nodes ((n - 1024) / 2)
      if n % 2 = 0 then nodeA x else nodeB x
    else if 2048 ≤ n ∧ n ≤ 2559 then
      let g := smGet GateEntry.boot s.gates ((n - 2048) / 2)
      if n % 2 = 0 then g.enta else g.entb
    else if 4096 ≤ n ∧ n ≤ 4607 then srcCell s (n - 4096)
    else if 8195 ≤ n ∧ n ≤ 9151 then tgtCell (s.src ((n - 8192) / 3)) ((n - 8192) % 3)
    else 0

/-- What a register shows, with no side effect: a peek (R8). -/
def regPeek (s : State) : RegRef → Cell
  | .tile k => if k < 128 then tilePeekLow s k else tilePeekHigh s k
  | .core c k => corePeek s c k
  | .thread t k => threadPeek s t k

/-! ### Reads with an effect: the registers that hold an RC field (R213) -/

/-- A read of TIC.CLAIM of a thread clears the PEND of the source it returns and releases its hold (R275). -/
def claim (s : State) (t : ThreadId) : State :=
  match claimSource s t with
  | some i => retractSrc i s
  | none => s

/-- A read of TIC.MCSTAT clears PEND and MORE (R286). -/
def readMcstat (s : State) : State := { s with tic := { s.tic with mcPend := false, mcMore := false } }

/-- A read of TIC.WAKE k clears its latches (R270). -/
def readWake (k : Nat) (s : State) : State :=
  { s with tic := { s.tic with latches := s.tic.latches &&& ~~~((BitVec.allOnes 48).setWidth 512 <<< (48 * k)) } }

/-- A read of ECC.CECNT[b] clears the count (R336). -/
def readCecnt (b : Nat) (s : State) : State := { s with ecc := { s.ecc with cecnt := s.ecc.cecnt.set b 0 } }

/-- A read of ECC.CELOG removes the oldest entry; source 1 retracts when the log becomes empty (R338, R352). -/
def readCelog (s : State) : State :=
  match s.ecc.celog with
  | [] => s
  | _ :: rest =>
    let s1 := { s with ecc := { s.ecc with celog := rest } }
    if rest.isEmpty then retractSrc 1 s1 else s1

/-- A read of ECC.UELOG removes the oldest entry (R338). -/
def readUelog (s : State) : State := { s with ecc := { s.ecc with uelog := s.ecc.uelog.drop 1 } }

/-- A read of HEEL.LOSSLOG removes the oldest entry; source 8 retracts when the log becomes empty (R391). -/
def readLosslog (s : State) : State :=
  match s.heel.losslog with
  | [] => s
  | _ :: rest =>
    let s1 := { s with heel := { s.heel with losslog := rest } }
    if rest.isEmpty then retractSrc 8 s1 else s1

/-- A thread's read of DBG.RXD clears the cell and RXFULL, and its source retracts (R469, R7). -/
def readRxd (c : CoreId) (s : State) : State :=
  let s1 := s.modCor c fun k => { k with rxd := 0, rxfull := false }
  if (s.cor c).rxfull then retractSrc (40 + c.val) s1 else s1

/-- What a read of a register does besides returning its value. DESIGN CHOICE (notes/assumptions/70.md). -/
def regReadEffect (r : RegRef) (s : State) : State :=
  match r with
  | .tile k =>
    if k = 73 then readCelog s
    else if k = 74 then readUelog s
    else if k = 326 then readLosslog s
    else if k = 448 then readMcstat s
    else if 450 ≤ k ∧ k ≤ 456 then readWake (k - 450) s
    else if 128 ≤ k ∧ k ≤ 213 then readCecnt (k - 128) s
    else s
  | .core c k => if k = 18 then readRxd c s else s
  | .thread t k => if k = 5 then claim s t else s

/-- A load of a register: its value, and the state after the read. -/
def regLoad (s : State) (r : RegRef) : Cell × State := (regPeek s r, regReadEffect r s)

end Sys2Proof.Machine
end

