-- ==== Sys2Proof/Machine/Operands.lean ====
section
/-! DEFINITION. Operand forms and accesses: addressing forms, the checks of R120, what a load reads and where a write goes
(chapters 5, 7 and 10). -/

namespace Sys2Proof.Machine

/-! ### Addressing forms (R71, R122, R123) -/

/-- The scale of an indexed form (R71). -/
def scaleOf (m : BitVec 5) : Nat :=
  match m.toNat with
  | 2 => 1
  | 3 => 2
  | 4 => 3
  | 5 => 4
  | 6 => 6
  | _ => 12

/-- Is a form indexed? -/
def formIndexed : AddrForm → Bool
  | .base => false
  | .mode m => decide (2 ≤ m.toNat ∧ m.toNat ≤ 7)

/-- Does a form push the updated address back? -/
def formUpdates : AddrForm → Bool
  | .base => false
  | .mode m => decide (m.toNat < 2)

/-- The cells a form takes its address from: one, or the address and the index. -/
def formCells (f : AddrForm) : Nat := if formIndexed f then 2 else 1

/-- The effective address of an access of w bytes, modulo 2⁴⁸, from the form's cells, top first (R71, R123). -/
def effAddr (f : AddrForm) (w : Nat) (cs : List PCell) : Cell :=
  match f, cs with
  | .base, a :: _ => a.val
  | .mode m, c :: rest =>
    if m.toNat = 0 then c.val
    else if m.toNat = 1 then c.val - BitVec.ofNat 48 w
    else if m.toNat ≤ 7 then (match rest with
      | a :: _ => a.val + c.val * BitVec.ofNat 48 (scaleOf m)
      | [] => c.val)
    else c.val + BitVec.ofNat 48 ((m.toNat - 7) * 6)
  | _, [] => 0

/-- The address cell a form leaves, if it pushes one back (R71, R122). -/
def formLeaves (f : AddrForm) (w : Nat) (cs : List PCell) : List Cell :=
  match f, cs with
  | .mode m, a :: _ =>
    if m.toNat = 0 then [a.val + BitVec.ofNat 48 w]
    else if m.toNat = 1 then [a.val - BitVec.ofNat 48 w]
    else []
  | _, _ => []

/-! ### Regions (R291, R292) -/

inductive Region where
  | own | view (c : CoreId) | shared | stash | kennel | host | frame | reg | keep
  deriving DecidableEq, Repr

/-- The region of a byte address; none where it is unmapped (R291). -/
def regionAt (a : Nat) : Option Region :=
  if a < 0x18000 then some .own
  else match spadCore a with
    | some c => some (.view c)
    | none =>
      if 0x10000000 ≤ a ∧ a < 0x10500000 then some .shared
      else if 0x10500000 ≤ a ∧ a < 0x10600000 then some .stash
      else if 0x10700000 ≤ a ∧ a < 0x10760000 then some .kennel
      else if 0x20000000 ≤ a ∧ a < 0x30000000 then some .host
      else if 0x30000000 ≤ a ∧ a < 0x30004000 then some .frame
      else if 0x40000000 ≤ a ∧ a < 0x50000000 then some .reg
      else if 0xF0000000 ≤ a ∧ a < 0xF0020000 then some .keep
      else none

/-- The one region that holds n bytes from a, for a thread; in register space every byte must belong to a register (R292,
R294, R494). -/
def spanRegion (who : Option ThreadId) (a n : Nat) : Option Region :=
  match regionAt a, regionAt (a + n - 1) with
  | some r, some r' =>
    if r ≠ r' then none
    else if r = .reg ∧ (span a n).any (fun b => (regAt who b).isNone) then none
    else some r
  | _, _ => none

/-- The core whose scratchpad a region is, for a thread of core c. -/
def spadOf (c : CoreId) : Region → Option CoreId
  | .own => some c
  | .view x => some x
  | _ => none

/-- Does a core's scratchpad answer nobody: the core is fenced or power-gated, which an attached debugger prevents (R302,
R458)? -/
def spadGone (s : State) (c : CoreId) : Bool :=
  (s.cor c).fenced || (decide ((s.cor c).rest = .doze) && !s.dbg.attached)

/-! ### Access kinds and checks (R120) -/

/-- What makes an access. `sc` is SC6 or TAS. -/
inductive AccKind where
  | load | store | lr | sc | cas | blockRead | blockWrite | helperRead | helperWrite
  deriving DecidableEq, Repr

/-- Does an access write? A CAS6 does not at step 4 of R120, so that outside host memory it fails step 5 (R139; DESIGN CHOICE,
notes/assumptions/104.md). -/
def AccKind.writes : AccKind → Bool
  | .store => true
  | .sc => true
  | .blockWrite => true
  | .helperWrite => true
  | _ => false

/-- LEN and HANDLE of an item (R9). -/
def Item.len (it : Item) : Nat := (it.desc1.extractLsb' 21 14).toNat
def Item.handle (it : Item) : Nat := (it.desc1.extractLsb' 0 21).toNat

/-- LEN of a thread's frame window (R319). -/
def frameLen (s : State) (t : ThreadId) : Nat := ((currentItem s t).map Item.len).getD 0

/-- May a level reach offsets off to off + n − 1 of a core's scratchpad (R301)? -/
def guardOk (k : Core) (l : Level) (off n : Nat) : Bool :=
  let last := off + n - 1
  let slo := min k.slo.toNat k.mlo.toNat
  decide (l = .M) || (decide (last < k.mlo.toNat * 1024) && (decide (l = .S) || decide (last < slo * 1024)))

/-- May a level reach an offset of the keep-store window (R321)? -/
def keepOk (l : Level) (write : Bool) (off : Nat) : Bool :=
  if off < 0xC00 then decide (l = .M) && !write
  else if off < 0x1800 then decide (l = .M) || (decide (l = .S) && !write)
  else decide (l ≠ .T)

/-- Step 4 of R120: the level and grants. -/
def rightsOk (s : State) (t : ThreadId) (l : Level) (k : AccKind) (r : Region) (a n : Nat) (v : Cell) : Bool :=
  match r with
  | .own => guardOk (s.cor t.core) l a n
  | .view c => guardOk (s.cor c) l (spadOff a) n
  | .stash => decide (l = .M) || !k.writes
  | .kennel => decide (l = .M) || (s.thr t).grant
  | .keep => keepOk l k.writes (a - 0xF0000000) && keepOk l k.writes (a + n - 1 - 0xF0000000)
  | .reg => (span a n).all fun b => match regAt (some t) b with
      | some x => if k.writes then mayStore l t v x else mayRead l t x
      | none => false
  | _ => true

/-- Does the kennel read as zero and take no store for good (R488)? -/
def kennelSealed (s : State) : Bool := decide (3 ≤ s.lc.stateOut.toNat)

/-- Step 5 of R120: is the access kind refused in the region (R135, R139, R312, R397, R488, R497)?
DEDUCED (notes/assumptions/25.md). -/
def forbidden (s : State) (t : ThreadId) (k : AccKind) (r : Region) (n : Nat) : Bool :=
  let local' := match r with
    | .own => true
    | .view c => decide (c = t.core)
    | _ => false
  match k with
  | .cas => decide (r ≠ .host)
  | .lr => !((spadOf t.core r).isSome || decide (r = .shared ∨ r = .stash ∨ r = .kennel)) ||
      (decide (r = .kennel) && s.knl.wiping)
  | .sc => !((spadOf t.core r).isSome || decide (r = .shared ∨ r = .stash ∨ r = .kennel)) ||
      (decide (r = .kennel) && (s.knl.wiping || kennelSealed s))
  | .helperRead => !(local' || decide (r = .shared ∨ r = .stash ∨ r = .kennel ∨ r = .frame))
  | .helperWrite => !(local' || decide (r = .shared ∨ r = .stash ∨ r = .kennel ∨ r = .frame)) ||
      (decide (r = .kennel) && (s.knl.wiping || kennelSealed s))
  | .blockRead => decide (r = .reg)
  | .load => decide (r = .reg ∧ n ≠ 6)
  | .store => decide (r = .reg ∧ n ≠ 6) || (decide (r = .kennel) && (s.knl.wiping || kennelSealed s))
  | .blockWrite => decide (r = .reg) || (decide (r = .kennel) && (s.knl.wiping || kennelSealed s))

/-- Step 6 of R120: alignment (R30, R31, R298, R300, R152, R397). -/
def aligned (t : ThreadId) (k : AccKind) (r : Region) (a n : Nat) : Bool :=
  match k with
  | .blockRead => true
  | .blockWrite => true
  | .helperRead => true
  | .helperWrite => true
  | _ =>
    let spad := (spadOf t.core r).isSome
    if k = .lr ∨ k = .sc ∨ k = .cas then
      decide (a % 6 = 0) && (!spad || decide ((match r with
        | .view _ => spadOff a
        | _ => a) % 6 = 0))
    else if spad then true
    else if 6 ≤ n then decide (a % 6 = 0)
    else decide (a % 6 + n ≤ 6)

/-- Does an access to the scratchpad of a core that is fenced or power-gated find it unmapped (R302)? A store is refused late, and CAS6 and
a helper range fail step 5 there (R139, R397). -/
def AccKind.needsSpad : AccKind → Bool
  | .load | .lr | .sc | .blockRead | .blockWrite => true
  | _ => false

/-- The checks of R120, in order, on n bytes at a 48-bit effective address: the region, or the exception raised. A fenced or
power-gated core's scratchpad is unmapped for what needs it at once (R302; DEDUCED, notes/assumptions/31.md). -/
def checkAccess (s : State) (t : ThreadId) (l : Level) (k : AccKind) (ea : Cell) (n : Nat) (v : Cell) : Except Exc Region :=
  let addr : BitVec 36 := ea.setWidth 36
  let a := ea.toNat
  if upperBits ea then .error { cause := 3, sub := 0, addr := addr }
  else match spanRegion (some t) a n with
    | none => .error { cause := 3, sub := 1, addr := addr }
    | some r =>
      if k.needsSpad ∧ (spadOf t.core r).any (spadGone s) then .error { cause := 3, sub := 1, addr := addr }
      else if rightsOk s t l k r a n v = false then .error { cause := 5, sub := 1, addr := addr }
      else if forbidden s t k r n then .error { cause := 3, sub := 2, addr := addr }
      else if aligned t k r a n = false then .error { cause := 2, sub := 0, addr := addr }
      else if r = .frame ∧ k.writes ∧ frameLen s t < a - 0x30000000 + n then .error { cause := 3, sub := 5, addr := addr }
      else .ok r

/-! ### Reading and writing a target -/

/-- How a load or a store of a thread meets a borrowed window: those of the borrow's OWNER at M level reach the scratchpad itself;
no other access does (R317). -/
def viaOf (s : State) (t : ThreadId) (l : Level) (r : Region) : Via :=
  match spadOf t.core r with
  | some c => if l = .M ∧ (s.cor c).borrow.owner.toNat = t.val then .owner else .normal
  | none => .normal

/-- Is a byte one of the unlock key, which reads as zero on every path (R489)? -/
def keyByte (a : Nat) : Bool := decide (0xF0000090 ≤ a ∧ a < 0xF00000B4)

/-- Does a byte read as zero whatever it stores: a key byte, or a kennel byte during a wipe or in RETURN and SCRAP (R312,
R488, R489)? -/
def readsZero (s : State) (a : Nat) : Bool := keyByte a || (isKennel a && (s.knl.wiping || kennelSealed s))

/-- A read of the bytes at the given addresses by a thread, the heel or the tile's own logic. -/
def busRead (s : State) (via : Via) (as : List Nat) : ReadRes × State :=
  as.foldl (fun acc a =>
    if readsZero acc.2 a then (acc.1.add (.good 0), acc.2)
    else
      let r := readByte acc.2 via a
      (acc.1.add r.1, r.2)) (.ok [], s)

/-- The tile's own logic reads a span of storage, the key cells too: its correctable bytes are counted and logged, and written back in legacy mode
(R333). DEDUCED (notes/assumptions/98.md). -/
def logicReads (a n : Nat) (s : State) : State := (span a n).foldl (fun acc x => (readByte acc .normal x).2) s

/-- The value an edit list gives a frame offset, if it lists one. -/
def editAt (m : SMap Byte) (off : Nat) : Option Byte := (m.find? fun e => decide (e.1 = off)).map (·.2)

/-- Put a byte in an edit list. -/
def putEdit (m : SMap Byte) (off : Nat) (b : Byte) : SMap Byte := smIns off b (smDel m off)

/-- Put consecutive bytes in an edit list. -/
def putEdits (m : SMap Byte) (off : Nat) : List Byte → SMap Byte
  | [] => m
  | b :: bs => putEdits (putEdit m off b) (off + 1) bs

/-- The stash address of an item's byte (R9, R304). -/
def stashAddr (it : Item) (off : Nat) : Nat := 0x10500000 + 6 * it.handle + off

/-- One byte of an item as its current visit sees it (R15): this visit's edit, an earlier visit's, or the stash. -/
def itemByte (s : State) (it : Item) (off : Nat) : ByteClass × State :=
  if it.len ≤ off then (.good 0, s)
  else match editAt it.edits off with
    | some b => (.good b, s)
    | none => match editAt it.kept off with
      | some b => (.good b, s)
      | none => readByte s .normal (stashAddr it off)

/-- A read of n bytes of a thread's frame window (R15, R319). -/
def readFrame (s : State) (t : ThreadId) (off n : Nat) : ReadRes × State :=
  match currentItem s t with
  | none => (.ok (List.replicate n 0), s)
  | some it => (span off n).foldl (fun acc o =>
      let r := itemByte acc.2 it o
      (acc.1.add r.1, r.2)) (.ok [], s)

/-- A read of n bytes of a region the tile itself holds. -/
def readTarget (s : State) (t : ThreadId) (r : Region) (via : Via) (ea n : Nat) : ReadRes × State :=
  match r with
  | .frame => readFrame s t (ea - 0x30000000) n
  | _ => busRead s via (span (physOf t ea) n)

/-! ### The D-cache (R305 to R308) -/

def lineOf (a : Nat) : Nat := a - a % 48

/-- May the D-cache hold the line (R306)? -/
def lineCacheable (a : Nat) : Bool :=
  decide ((0x10000000 ≤ a ∧ a + 48 ≤ 0x10500000) ∨ (0x20000000 ≤ a ∧ a + 48 ≤ 0x30000000))

/-- A line installed as the most recently used of its set; the least recently used of four makes room (R305). Lines stand
oldest first. -/
def insDline (ls : List DLine) (l : DLine) : List DLine :=
  let others := ls.filter fun x => decide (x.addr ≠ l.addr)
  let mine := others.filter fun x => decide ((x.addr / 48) % 128 = (l.addr / 48) % 128)
  let kept := if 4 ≤ mine.length then (match mine with
    | old :: _ => others.filter fun x => decide (x.addr ≠ old.addr)
    | [] => others) else others
  kept ++ [l]

def findDline (k : Core) (line : Nat) : Option DLine := k.dlines.find? fun l => decide (l.addr = line)

/-- Invalidate a line of a core, and a fill of it in progress (R133, R307). -/
def dropLine (c : CoreId) (line : Nat) (s : State) : State :=
  s.modCor c fun k => { k with
    dlines := k.dlines.filter fun x => decide (x.addr ≠ line), dfills := k.dfills.filter fun x => decide (x.1 ≠ line) }

/-- The bytes a line holds at an address, if every one is good (R305). -/
def lineBytes (l : DLine) (a n : Nat) : Option (List Byte) :=
  (((l.bytes.drop (a - l.addr)).take n).map classify).mapM fun k => match k with
    | .clear => some 0
    | .good d => some d
    | _ => none

/-- A core's own write of bytes updates each of its lines that holds any of them, and discards a fill of such a line in
progress (R306, R307). The lines of a core in deterministic mode stay as they are (R129). A store is no use of a line: the order of R305
stays (DESIGN CHOICE, notes/assumptions/117.md). -/
def lineUpdate (c : CoreId) (a : Nat) (bs : List Byte) (s : State) : State :=
  let inLine := fun (line : Nat) => overlaps line 48 a bs.length
  s.modCor c fun k => { k with
    dlines := k.dlines.map fun l =>
      if inLine l.addr ∧ k.act = false then
        { l with bytes := (l.bytes.zip (span l.addr 48)).map fun e =>
            if a ≤ e.2 ∧ e.2 < a + bs.length then encByte (bs.getD (e.2 - a) 0) else e.1 }
      else l
    dfills := k.dfills.filter fun f => !inLine f.1 }

/-- Does an access of a thread use the D-cache: a core in normal mode, and all its bytes in one line that may be held (R128,
R129, R306)? -/
def usesDcache (s : State) (t : ThreadId) (r : Region) (ea n : Nat) : Bool :=
  !(s.cor t.core).act && decide (r = .shared ∨ r = .host) && decide (lineOf ea = lineOf (ea + n - 1)) && lineCacheable (lineOf ea)

/-- A D-cache hit, which makes the line the most recently used; a line with a byte that fails its code is invalidated and
does not hit (R305). -/
def cacheHit (s : State) (c : CoreId) (ea n : Nat) : Option (List Byte) × State :=
  match findDline (s.cor c) (lineOf ea) with
  | none => (none, s)
  | some l => match lineBytes l ea n with
    | some bs => (some bs, s.modCor c fun k => { k with dlines := insDline k.dlines l })
    | none => (none, dropLine c l.addr s)

/-- A line fill starts, one of a host line with the tag of its request (R307). -/
def noteFill (c : CoreId) (line : Nat) (tag : Option (BitVec 8)) (s : State) : State :=
  s.modCor c fun k => { k with dfills := if k.dfills.contains (line, tag) then k.dfills else k.dfills ++ [(line, tag)] }

/-- A write of a thread to storage the tile holds: the frame window's edits, or stored bytes with this core's lines
following (R16, R307, R330). -/
def writeTarget (t : ThreadId) (r : Region) (via : Via) (ea : Nat) (bs : List Byte) (s : State) : State :=
  match r with
  | .frame => match currentItem s t with
    | some it => modItem s it.id fun x => { x with edits := putEdits x.edits (ea - 0x30000000) bs }
    | none => s
  | _ =>
    let a := physOf t ea
    lineUpdate t.core a bs (writeSpan s via a bs)

/-! ### The fabric (R320, R479) -/

/-- The owner ID of a thread (R139). -/
def ownerId (s : State) (t : ThreadId) : BitVec 17 := s.node ++ BitVec.ofNat 7 t.val

/-- Do requests of a thread wait for an OWNER_RESET to be acknowledged (R480)? -/
def ownerHeld (s : State) (t : ThreadId) : Bool := (s.ownq ++ s.ownWait.toList).any (inScope t)

/-- Does a request that the fabric has not taken wait for an acknowledgement (R480)? -/
def reqHeld (s : State) (r : FabReq) : Bool := ownerHeld s r.thread

/-- The lowest tag not in use; none with 256 requests outstanding or timed out (R479).
DESIGN CHOICE (notes/assumptions/19.md). -/
def freeTag (f : Fab) : Option (BitVec 8) :=
  ((List.range 256).map (BitVec.ofNat 8)).find? fun x => !(f.out.any fun r => decide (r.tag = x)) && !f.blocked.contains x

/-- FAB_REQ and the signals beside it (R475, R479): the oldest request that the fabric has not taken and no OWNER_RESET holds (R480); in Off
nothing. Requests go to the port one after another in their order (DESIGN CHOICE, notes/assumptions/128.md). -/
def State.fabPort (s : State) : Option FabReq :=
  if s.pwr.rest = .off then none else s.fab.out.find? fun r => !r.taken && !reqHeld s r

/-- Issue a fabric request for n bytes at a host-memory address; none while no tag is free (R320, R479). -/
def fabSend (s : State) (use : FabUse) (owner : BitVec 17) (a n : Nat) (wdata : Option (List Byte)) (peek : Bool) :
    Option (BitVec 8 × State) :=
  (freeTag s.fab).map fun tag =>
    let r : FabReq :=
      { tag := tag, we := wdata.isSome, addr := BitVec.ofNat 28 (a - 0x20000000), len := n, wdata := wdata.getD [],
        owner := owner, peek := peek, use := use }
    (tag, { s with fab := { s.fab with out := s.fab.out ++ [r] } })

/-- A thread's fabric request. -/
def threadSend (s : State) (t : ThreadId) (use : FabUse) (a n : Nat) (wdata : Option (List Byte)) : Option (BitVec 8 × State) :=
  if ownerHeld s t then none else fabSend s use (ownerId s t) a n wdata false

/-- Byte j of the fabric's read data (R475). -/
def fabByte (d : BitVec 384) (j : Nat) : Byte := d.extractLsb' (376 - 8 * j) 8

/-- The bytes that the boot ROM's next read of the image asks for: 48, fewer at the image's end and at that of host memory. -/
def romLen (b : BootBlock) (got : Nat) : Nat := min 48 (min (2 * b.nwords - got) (2 ^ 28 - b.src - got))

/-- The boot thread asks for the next bytes of the image (R487); it asks again later where no tag is free.
DESIGN CHOICE (notes/assumptions/54.md). -/
def romAsk (t : ThreadId) (s : State) : State :=
  match (s.thr t).pend with
  | .rom (.copies others b got false) =>
    match threadSend s t (.rom t) (0x20000000 + b.src + got.length) (romLen b got.length) none with
    | some (_, s1) => s1.modThr t fun th => { th with pend := .rom (.copies others b got true) }
    | none => s
  | _ => s

/-- The first n bytes of the fabric's read data. -/
def fabBytes (d : BitVec 384) (n : Nat) : List Byte := (List.range n).map (fabByte d)

/-! ### Forwarding (R219) -/

/-- What a thread's buffered stores mean for a load. -/
inductive Fwd where
  | read
  | wait
  | forward (bs : List Byte) (par : Bool)
  deriving DecidableEq, Repr

/-- The youngest buffered store of a list, oldest first, that covers a storage address and has not lost its visit. -/
def coverOf (t : ThreadId) (es : List SbEntry) (a : Nat) : Option SbEntry :=
  es.reverse.find? fun e => !e.stray && decide (physOf t e.ea.toNat ≤ a ∧ a < physOf t e.ea.toNat + e.bytes.length)

/-- The table of R219. -/
def forwardFor (s : State) (t : ThreadId) (lr : Bool) (r : Region) (ea n : Nat) : Fwd :=
  let es := storesOf s t
  let a := physOf t ea
  if es.isEmpty then .read
  else if r = .reg ∨ r = .keep then .wait
  else
    let cover := (span a n).map (coverOf t es)
    if lr then (if storeTouches s t (cellKey a) 6 then .wait else .read)
    else if cover.all Option.isNone then .read
    else match cover.mapM id with
      | none => .wait
      | some es' =>
        let taken := (es'.zip (span a n)).map fun e => (e.1, e.2 - physOf t e.1.ea.toNat)
        .forward (taken.map fun e => e.1.bytes.getD e.2 0) (taken.any fun e => e.1.par.getLsbD e.2)

/-! ### Load results -/

/-- The cells a load pushes, top first (R31, R36). -/
def loadValue (width : Nat) (signed : Bool) (bs : List Byte) : List Cell :=
  if width = 12 then [bytesCell (bs.take 6), bytesCell (bs.drop 6)]
  else
    let v := bytesCell bs
    let sh := 48 - 8 * width
    [if signed then (v <<< sh).sshiftRight sh else v]

/-- The exceptions of a read at an effective address (R120 step 8, R332). -/
def readExc (ea : BitVec 36) : ReadRes → Option Exc
  | .ok _ => none
  | .poison => some { cause := 0x10, sub := 0, addr := ea }
  | .ue => some { cause := 3, sub := 3, addr := ea }

/-- The bytes a read delivered. -/
def readBytes : ReadRes → List Byte
  | .ok bs => bs
  | _ => []

/-- The rights and the own thread of an explicit access. -/
def accLevel (s : State) (t : ThreadId) : Level := rightsLevel s t

end Sys2Proof.Machine
end

