-- ==== Sys2Proof/Machine/Mem.lean ====
section
/-! DEFINITION. Loads and stores (R121 to R129, R219). -/

namespace Sys2Proof.Machine

/-- A load completes with the bytes it read: the value, and the updated address over it, replace its operands; LR6 takes its
reservation (R122, R136). -/
def loadDone (t : ThreadId) (sh : LoadShape) (ea : Nat) (left : List Cell) (bs : List Byte) (s : State) : State :=
  let s1 := popPush t (formCells sh.form) (left ++ loadValue sh.width sh.signed bs) s
  if sh.lr then s1.modThr t fun th => { th with resv := some (cellKey (physOf t ea)) } else s1

/-- What a read delivered to a load: its completion, or the exception of R120 step 8. -/
def loadResult (t : ThreadId) (sh : LoadShape) (ea : Nat) (left : List Cell) (r : ReadRes × State) : WRes :=
  match readExc (BitVec.ofNat 36 ea) r.1 with
  | some x => .trap x r.2
  | none => .next (loadDone t sh ea left (readBytes r.1) r.2)

/-- A load of host memory asks the fabric: for the whole line where the D-cache may hold it, for its own bytes otherwise
(R306, R307, R320). It stays in flight; with no tag free it waits. -/
def loadHost (t : ThreadId) (sh : LoadShape) (ea : Nat) (left : List Cell) (cached : Bool) (s : State) : WRes :=
  let req := if cached then threadSend s t (.load t) (lineOf ea) 48 none else threadSend s t (.load t) ea sh.width none
  match req with
  | none => .hold s
  | some (tag, s1) =>
    let s2 := if cached then noteFill t.core (lineOf ea) (some tag) s1 else s1
    .hold (s2.modThr t fun th => { th with pend := .load sh (BitVec.ofNat 36 ea) (left.headD 0) })

/-- A load through the D-cache: a hit serves it; a miss reads the whole line, delivers the load's bytes and starts the fill
(R305, R307). -/
def loadCached (t : ThreadId) (sh : LoadShape) (r : Region) (ea : Nat) (left : List Cell) (s : State) : WRes :=
  let h := cacheHit s t.core ea sh.width
  match h.1 with
  | some bs => .next (loadDone t sh ea left bs h.2)
  | none =>
    if r = .host then loadHost t sh ea left true h.2
    else
      let line := lineOf ea
      let after := (busRead h.2 .normal (span line 48)).2
      loadResult t sh ea left (peekSpan h.2 .normal ea sh.width, noteFill t.core line none after)

/-- A load reads its target (R120 step 8). -/
def loadTarget (t : ThreadId) (sh : LoadShape) (r : Region) (ea : Nat) (left : List Cell) (s : State) : WRes :=
  if !sh.lr && usesDcache s t r ea sh.width then loadCached t sh r ea left s
  else match r with
    | .host => loadHost t sh ea left false s
    | .reg => match regAt (some t) ea with
      | some x =>
        let v := regLoad s x
        .next (loadDone t sh ea left (cellBytes v.1) v.2)
      | none => .hold s
    | _ => loadResult t sh ea left (readTarget s t r (if sh.lr then .normal else viaOf s t (accLevel s t) r) ea sh.width)

/-- The body of a load (R120, R122, R219). -/
def loadBody (t : ThreadId) (sh : LoadShape) (cs : List PCell) (s : State) : WRes :=
  let ea48 := effAddr sh.form sh.width cs
  let left := formLeaves sh.form sh.width cs
  match checkAccess s t (accLevel s t) (if sh.lr then .lr else .load) ea48 sh.width 0 with
  | .error x => .trap x s
  | .ok r =>
    let ea := ea48.toNat
    let hits := dataHits s t false ea sh.width
    if hits ≠ 0 then .brk hits s
    else match forwardFor s t sh.lr r ea sh.width with
      | .wait => .hold s
      | .forward bs par =>
        if par then .trap { cause := 0x0D, sub := 2, addr := 0 } s else .next (loadDone t sh ea left bs s)
      | .read => loadTarget t sh r ea left s

/-- A load (R121, R122). -/
def loadSem (t : ThreadId) (sh : LoadShape) : WordSem :=
  WordSem.plain (formCells sh.form) ((if sh.width = 12 then 2 else 1) + (if formUpdates sh.form then 1 else 0)) (loadBody t sh)

/-- The bytes a store of w bytes writes, from its value cells, top first (R31, R36). -/
def storeBytes (w : Nat) (vs : List PCell) : List Byte :=
  match vs with
  | hi :: lo :: _ => if w = 12 then cellBytes hi.val ++ cellBytes lo.val else natBytes w hi.val.toNat
  | v :: _ => natBytes w v.val.toNat
  | [] => []

/-- A store enters the store buffer; with 8 entries there it waits at issue (R124, R219). -/
def bufferStore (t : ThreadId) (ea : Nat) (bs : List Byte) (n : Nat) (left : List Cell) (s : State) : WRes :=
  if 8 ≤ (s.cor t.core).sb.length then .hold s
  else
    let e : SbEntry :=
      { thread := t, lvl := accLevel s t, ea := BitVec.ofNat 36 ea, bytes := bs, par := 0, phase := .waiting }
    .next (popPush t n left (s.modCor t.core fun k => { k with sb := k.sb ++ [e] }))

/-- The body of a store (R120, R122). -/
def storeBody (t : ThreadId) (w : Nat) (form : AddrForm) (cs : List PCell) (s : State) : WRes :=
  let ea48 := effAddr form w cs
  let vs := cs.drop (formCells form)
  let v := (vs.headD (PCell.of 0)).val
  match checkAccess s t (accLevel s t) .store ea48 w v with
  | .error x => .trap x s
  | .ok _ =>
    let hits := dataHits s t true ea48.toNat w
    if hits ≠ 0 then .brk hits s
    else bufferStore t ea48.toNat (storeBytes w vs) cs.length (formLeaves form w cs) s

/-- A store (R121, R122). -/
def storeSem (t : ThreadId) (w : Nat) (form : AddrForm) : WordSem :=
  WordSem.plain (formCells form + (if w = 12 then 2 else 1)) (if formUpdates form then 1 else 0) (storeBody t w form)

/-- LD1, zero-extending (R121, R31). -/
def semLd1 (t : ThreadId) (form : AddrForm) : WordSem := loadSem t { width := 1, signed := false, lr := false, form := form }
def execLd1 (t : ThreadId) (g : Guard) (form : AddrForm) (s : State) : Host.Outcome State Fault Refusal :=
  .next (runWord t g (semLd1 t form) s)

/-- LD2, zero-extending (R121, R31). -/
def semLd2 (t : ThreadId) (form : AddrForm) : WordSem := loadSem t { width := 2, signed := false, lr := false, form := form }
def execLd2 (t : ThreadId) (g : Guard) (form : AddrForm) (s : State) : Host.Outcome State Fault Refusal :=
  .next (runWord t g (semLd2 t form) s)

/-- LD3, zero-extending (R121, R31). -/
def semLd3 (t : ThreadId) (form : AddrForm) : WordSem := loadSem t { width := 3, signed := false, lr := false, form := form }
def execLd3 (t : ThreadId) (g : Guard) (form : AddrForm) (s : State) : Host.Outcome State Fault Refusal :=
  .next (runWord t g (semLd3 t form) s)

/-- LD4, zero-extending (R121, R31). -/
def semLd4 (t : ThreadId) (form : AddrForm) : WordSem := loadSem t { width := 4, signed := false, lr := false, form := form }
def execLd4 (t : ThreadId) (g : Guard) (form : AddrForm) (s : State) : Host.Outcome State Fault Refusal :=
  .next (runWord t g (semLd4 t form) s)

/-- LD6 (R121). -/
def semLd6 (t : ThreadId) (form : AddrForm) : WordSem := loadSem t { width := 6, signed := false, lr := false, form := form }
def execLd6 (t : ThreadId) (g : Guard) (form : AddrForm) (s : State) : Host.Outcome State Fault Refusal :=
  .next (runWord t g (semLd6 t form) s)

/-- LDS1, sign-extending (R121, R31). -/
def semLds1 (t : ThreadId) (form : AddrForm) : WordSem := loadSem t { width := 1, signed := true, lr := false, form := form }
def execLds1 (t : ThreadId) (g : Guard) (form : AddrForm) (s : State) : Host.Outcome State Fault Refusal :=
  .next (runWord t g (semLds1 t form) s)

/-- LDS2, sign-extending (R121, R31). -/
def semLds2 (t : ThreadId) (form : AddrForm) : WordSem := loadSem t { width := 2, signed := true, lr := false, form := form }
def execLds2 (t : ThreadId) (g : Guard) (form : AddrForm) (s : State) : Host.Outcome State Fault Refusal :=
  .next (runWord t g (semLds2 t form) s)

/-- LDS3, sign-extending (R121, R31). -/
def semLds3 (t : ThreadId) (form : AddrForm) : WordSem := loadSem t { width := 3, signed := true, lr := false, form := form }
def execLds3 (t : ThreadId) (g : Guard) (form : AddrForm) (s : State) : Host.Outcome State Fault Refusal :=
  .next (runWord t g (semLds3 t form) s)

/-- LDS4, sign-extending (R121, R31). -/
def semLds4 (t : ThreadId) (form : AddrForm) : WordSem := loadSem t { width := 4, signed := true, lr := false, form := form }
def execLds4 (t : ThreadId) (g : Guard) (form : AddrForm) (s : State) : Host.Outcome State Fault Refusal :=
  .next (runWord t g (semLds4 t form) s)

/-- LDD (R121, R35, R36). -/
def semLdd (t : ThreadId) (form : AddrForm) : WordSem := loadSem t { width := 12, signed := false, lr := false, form := form }
def execLdd (t : ThreadId) (g : Guard) (form : AddrForm) (s : State) : Host.Outcome State Fault Refusal :=
  .next (runWord t g (semLdd t form) s)

/-- ST1 (R121). -/
def semSt1 (t : ThreadId) (form : AddrForm) : WordSem := storeSem t 1 form
def execSt1 (t : ThreadId) (g : Guard) (form : AddrForm) (s : State) : Host.Outcome State Fault Refusal :=
  .next (runWord t g (semSt1 t form) s)

/-- ST2 (R121). -/
def semSt2 (t : ThreadId) (form : AddrForm) : WordSem := storeSem t 2 form
def execSt2 (t : ThreadId) (g : Guard) (form : AddrForm) (s : State) : Host.Outcome State Fault Refusal :=
  .next (runWord t g (semSt2 t form) s)

/-- ST3 (R121). -/
def semSt3 (t : ThreadId) (form : AddrForm) : WordSem := storeSem t 3 form
def execSt3 (t : ThreadId) (g : Guard) (form : AddrForm) (s : State) : Host.Outcome State Fault Refusal :=
  .next (runWord t g (semSt3 t form) s)

/-- ST4 (R121). -/
def semSt4 (t : ThreadId) (form : AddrForm) : WordSem := storeSem t 4 form
def execSt4 (t : ThreadId) (g : Guard) (form : AddrForm) (s : State) : Host.Outcome State Fault Refusal :=
  .next (runWord t g (semSt4 t form) s)

/-- ST6 (R121). -/
def semSt6 (t : ThreadId) (form : AddrForm) : WordSem := storeSem t 6 form
def execSt6 (t : ThreadId) (g : Guard) (form : AddrForm) (s : State) : Host.Outcome State Fault Refusal :=
  .next (runWord t g (semSt6 t form) s)

/-- STD (R121). -/
def semStd (t : ThreadId) (form : AddrForm) : WordSem := storeSem t 12 form
def execStd (t : ThreadId) (g : Guard) (form : AddrForm) (s : State) : Host.Outcome State Fault Refusal :=
  .next (runWord t g (semStd t form) s)

end Sys2Proof.Machine
end

