-- ==== Sys2Proof/Machine/Atomic.lean ====
section
/-! DEFINITION. The atomics, the ordering and cache instructions and the program-store instructions (R130 to R150). -/

namespace Sys2Proof.Machine

/-- LR6 ( addr -- x ) (R136). -/
def semLr6 (t : ThreadId) : WordSem := loadSem t { width := 6, signed := false, lr := true, form := .base }
def execLr6 (t : ThreadId) (g : Guard) (s : State) : Host.Outcome State Fault Refusal := .next (runWord t g (semLr6 t) s)

/-- Has the thread a store that its target has not accepted? -/
def storesWait (s : State) (t : ThreadId) : Bool := !(storesOf s t).isEmpty

/-- SC6 on the cell at an address, its checks passed and the earlier stores accepted (R137). -/
def sc6Perform (t : ThreadId) (r : Region) (ea : Nat) (x : Cell) (s : State) : State :=
  let has := decide ((s.thr t).resv = some (cellKey (physOf t ea)))
  let s1 := if has then writeTarget t r .normal ea (cellBytes x) s else s
  (popPush t 2 [flagCell has] s1).modThr t fun th => { th with resv := none }

/-- SC6 ( x addr -- flag ) (R137). -/
def semSc6 (t : ThreadId) : WordSem := WordSem.plain 2 1 fun cs s => match cs with
  | a :: x :: _ => match checkAccess s t (accLevel s t) .sc a.val 6 x.val with
    | .error e => .trap e s
    | .ok r =>
      let hits := dataHits s t true a.val.toNat 6
      if storesWait s t then .hold s
      else if hits ≠ 0 then .brk hits s
      else .next (sc6Perform t r a.val.toNat x.val s)
  | _ => .hold s
def execSc6 (t : ThreadId) (g : Guard) (s : State) : Host.Outcome State Fault Refusal := .next (runWord t g (semSc6 t) s)

/-- TAS on the byte at an address: the old byte is read and 0xFF written (R138). -/
def tasPerform (t : ThreadId) (r : Region) (ea : Nat) (s : State) : WRes :=
  let v := readTarget s t r .normal ea 1
  match readExc (BitVec.ofNat 36 ea) v.1 with
  | some x => .trap x v.2
  | none => .next (popPush t 1 [bytesCell (readBytes v.1)] (writeTarget t r .normal ea [0xFF] v.2))

/-- TAS ( addr -- old ) (R138). -/
def semTas (t : ThreadId) : WordSem := WordSem.plain 1 1 fun cs s => match cs with
  | a :: _ => match checkAccess s t (accLevel s t) .sc a.val 1 0 with
    | .error e => .trap e s
    | .ok r =>
      let hits := dataHits s t true a.val.toNat 1 ||| dataHits s t false a.val.toNat 1
      if storesWait s t then .hold s
      else if hits ≠ 0 then .brk hits s
      else tasPerform t r a.val.toNat s
  | [] => .hold s
def execTas (t : ThreadId) (g : Guard) (s : State) : Host.Outcome State Fault Refusal := .next (runWord t g (semTas t) s)

/-- CAS6 ( exp new addr -- old st ): the request goes to the semaphore port, behind those that wait there, and the word stays in flight
until the unit answers or the wait runs out (R139 to R141, R480). -/
def semCas6 (t : ThreadId) : WordSem := WordSem.plain 3 2 fun cs s => match cs with
  | a :: new :: exp :: _ => match checkAccess s t (accLevel s t) .cas a.val 6 0 with
    | .error e => .trap e s
    | .ok _ =>
      let hits := dataHits s t true a.val.toNat 6 ||| dataHits s t false a.val.toNat 6
      if storesWait s t || ownerHeld s t then .hold s
      else if hits ≠ 0 then .brk hits s
      else
        let q : SemReq :=
          { thread := t, addr := BitVec.ofNat 28 (a.val.toNat - 0x20000000), exp := exp.val, new := new.val, owner := ownerId s t,
            group := (s.thr t).semGroup }
        let s1 := { s with ports := { s.ports with semReq := s.ports.semReq ++ [q] } }
        .hold (s1.modThr t fun x => { x with pend := .cas6 (a.val.setWidth 36) .offered })
  | _ => .hold s
def execCas6 (t : ThreadId) (g : Guard) (s : State) : Host.Outcome State Fault Refusal := .next (runWord t g (semCas6 t) s)

/-- FENCE: retires once every store of the thread has been accepted (R131). The guards of the words after it are read after that (R57). -/
def semFence (t : ThreadId) : WordSem := WordSem.plain 0 0 fun _ s => if storesWait s t then .hold s
  else .next (s.modThr t fun th => { th with oldPreds := [] })
def execFence (t : ThreadId) (g : Guard) (s : State) : Host.Outcome State Fault Refusal := .next (runWord t g (semFence t) s)

/-- FLUSH: waits as FENCE does, and from the next core cycle on invalidates the core's D-cache, one set in a cycle; it retires with the
last (R132, `flushCycle`). DEDUCED (notes/assumptions/66.md). -/
def semFlush (t : ThreadId) : WordSem := WordSem.plain 0 0 fun _ s =>
  .hold (if storesWait s t then s else s.modThr t fun th => { th with pend := .flush 0 })
def execFlush (t : ThreadId) (g : Guard) (s : State) : Host.Outcome State Fault Refusal := .next (runWord t g (semFlush t) s)

/-- INVAL ( addr -- ): checks the address under R33 alone and invalidates the line that holds it (R133, R307). -/
def semInval (t : ThreadId) : WordSem := WordSem.plain 1 0 fun cs s => match cs with
  | a :: _ =>
    if upperBits a.val then .trap { cause := 3, sub := 0, addr := a.val.setWidth 36 } s
    else .next (popPush t 1 [] (dropLine t.core (lineOf a.val.toNat) s))
  | [] => .hold s
def execInval (t : ThreadId) (g : Guard) (s : State) : Host.Outcome State Fault Refusal := .next (runWord t g (semInval t) s)

/-- The checks of R120 on a program word address (R146). -/
def checkWord (a : Cell) : Except Exc PRegion :=
  if decide (2 ^ 20 ≤ a.toNat) then .error { cause := 3, sub := 0, addr := a.setWidth 36 }
  else match pregion a.toNat with
    | none => .error { cause := 3, sub := 1, addr := a.setWidth 36 }
    | some r => .ok r

/-- The word PST takes from a cell (R76). -/
def pstWord (w12 : Bool) (w : Cell) : PWord := if w12 then 0#2 ++ w.extractLsb' 0 12 else w.extractLsb' 0 14

/-- Write a word of program memory with a fresh code (R147). -/
def putWord (c : CoreId) (a : Nat) (r : PRegion) (w : PWord) (s : State) : State :=
  match r with
  | .local => s.modCor c fun k => { k with lprog := smPut localKill k.lprog a (encLocal w) }
  | .shared => { s with sprog := smPut sharedKill s.sprog a (encShared w) }
  | .rom => s

/-- PST ( w waddr -- ), at M and S (R146, R147). -/
def semPst (t : ThreadId) : WordSem :=
  { WordSem.plain 2 0 (fun cs s => match cs with
      | a :: w :: _ => match checkWord a.val with
        | .error e => .trap e s
        | .ok .rom => .trap { cause := 3, sub := 2, addr := a.val.setWidth 36 } s
        | .ok r => .next (popPush t 2 [] (putWord t.core a.val.toNat r (pstWord (s.cor t.core).w12 w.val) s))
      | _ => .hold s) with
    allowed := fun l => decide (l ≠ .T) }
def execPst (t : ThreadId) (g : Guard) (s : State) : Host.Outcome State Fault Refusal := .next (runWord t g (semPst t) s)

/-- The word PLD reads, or its exception (R150). -/
def pldRead (c : CoreId) (a : Nat) (r : PRegion) (s : State) : Except Exc PWord × State :=
  match r with
  | .rom => (.ok (Config.bootWord a), s)
  | .local =>
    let v := smGet localKill (s.cor c).lprog a
    (if localOk v then .ok (v.extractLsb' 0 14) else .error { cause := 0x0E, sub := 0, addr := BitVec.ofNat 36 a }, s)
  | .shared =>
    let v := readShared s a
    (if v.1.2 then .error { cause := 3, sub := 3, addr := BitVec.ofNat 36 a } else .ok v.1.1, v.2)

/-- PLD ( waddr -- w ) (R150, R78). -/
def semPld (t : ThreadId) : WordSem := WordSem.plain 1 1 fun cs s => match cs with
  | a :: _ => match checkWord a.val with
    | .error e => .trap e s
    | .ok r =>
      let v := pldRead t.core a.val.toNat r s
      match v.1 with
      | .error e => .trap e v.2
      | .ok w => .next (popPush t 1 [w.setWidth 48] v.2)
  | [] => .hold s
def execPld (t : ThreadId) (g : Guard) (s : State) : Host.Outcome State Fault Refusal := .next (runWord t g (semPld t) s)

/-- Empty the chain buffers of a core's threads that hold the words of some levels (R281). -/
def emptyChains (c : CoreId) (ls : Level → Bool) (s : State) : State :=
  (coreThreads c).foldl (fun acc t => acc.modThr t fun th => if ls th.chainLvl then { th with chainBuf := [] } else th) s

/-- PSYNC ( waddr -- ): the I-cache line that holds the address is invalidated, and the core's chain buffers are emptied (R149,
R281). -/
def semPsync (t : ThreadId) : WordSem := WordSem.plain 1 0 fun cs s => match cs with
  | a :: _ => match checkWord a.val with
    | .error e => .trap e s
    | .ok _ =>
      let line := a.val.toNat - a.val.toNat % 8
      .next (popPush t 1 [] (emptyChains t.core (fun _ => true)
        (s.modCor t.core fun k => { k with ilines := k.ilines.filter fun l => decide (l.addr ≠ line) })))
  | [] => .hold s
def execPsync (t : ThreadId) (g : Guard) (s : State) : Host.Outcome State Fault Refusal := .next (runWord t g (semPsync t) s)

end Sys2Proof.Machine
end

