-- ==== Sys2Proof/Machine/KeepOps.lean ====
section
/-! DEFINITION. Writes of the keep store (R321 to R323). -/

namespace Sys2Proof.Machine

/-- May a keep-store write start: no other is in progress (R322)? -/
def keepFree (s : State) : Bool := s.ks.todo.isEmpty

/-- In SCRAP the keep store refuses every write (R321, R488). -/
def keepRefuses (s : State) : Bool := decide (s.lc.stateOut = 4)

/-- The whole cells a write of bytes rewrites, in ascending order: bytes it does not reach keep what they store then (R322,
R331). -/
def keepCells (owner : KeepOwner) (a : Nat) (bs : List Byte) : List KeepJob :=
  ((span a bs.length).map cellKey).dedup.map fun key =>
    { owner := owner, addr := key, bytes := ((span key 6).filter isKeep).map fun x =>
      if a ≤ x ∧ x < a + bs.length then some (encByte (bs.getD (x - a) 0)) else none }

/-- A keep-store write starts, or follows the writes in progress (R322). -/
def keepStart (owner : KeepOwner) (a : Nat) (bs : List Byte) (s : State) : State :=
  { s with ks := { s.ks with todo := s.ks.todo ++ keepCells owner a bs } }

/-- Is a write of an owner in progress or waiting? -/
def keepHas (s : State) (owner : KeepOwner) : Bool := s.ks.todo.any fun j => decide (j.owner = owner)

/-- A keep-store write is refused: REFUSED sets and source 35 rises (R323). -/
def keepRefused (s : State) : State := raiseSrc 35 { s with ks := { s.ks with refused := true } }

/-- Put the lanes of a cell in the storage; a lane with no new byte keeps its stored bits (R331). -/
def putStored (a : Nat) : List (Option StoredByte) → State → State
  | [], s => s
  | some b :: bs, s => putStored (a + 1) bs (putMem s a b)
  | none :: bs, s => putStored (a + 1) bs s

/-- The cell write in progress ends: its bytes stand in the cell, DONE sets and source 35 rises (R322, R323).
DEDUCED (notes/assumptions/28.md). -/
def keepCellDone (s : State) : State :=
  match s.ks.todo with
  | [] => s
  | j :: rest =>
    let s1 := putStored j.addr j.bytes s
    raiseSrc 35 { s1 with ks := { s1.ks with todo := rest, done := true } }

end Sys2Proof.Machine
end

