-- ==== Sys2Proof/Machine/Block.lean ====
section
/-! DEFINITION. The resumable block instructions (R151 to R157). -/

namespace Sys2Proof.Machine

/-- What a step comes to: it ended; it waits for the fabric, the keep store or a free tag; it failed; comparators match. -/
inductive StepRes where
  | ended (b : BlockState) (s : State)
  | wait (b : BlockState) (s : State)
  | fault (x : Exc) (s : State)
  | brk (hits : BitVec 8) (s : State)

/-- The bytes of the next step (R152). -/
def stepLen (b : BlockState) : Nat := min 6 b.n.toNat

/-- One's-complement sum of two 16-bit numbers (R155). -/
def ocAdd (a b : Nat) : Nat := (a + b) % 65536 + (a + b) / 65536

/-- Add bytes as 16-bit words in network order to a one's-complement sum; a last single byte is a high byte (R155). -/
def ocSum (acc : Nat) : List Byte → Nat
  | hi :: lo :: rest => ocSum (ocAdd acc (hi.toNat * 256 + lo.toNat)) rest
  | [hi] => ocAdd acc (hi.toNat * 256)
  | [] => acc

/-- The operands after a step over some bytes (R153 to R156). -/
def stepDone (b : BlockState) (bs : List Byte) : BlockState :=
  let m := BitVec.ofNat 48 (stepLen b)
  { b with
    x := match b.kind with
      | .move => b.x + m
      | .fill => b.x
      | .csum => BitVec.ofNat 48 (ocSum (b.x.toNat % 65536) bs)
    a := b.a + m
    n := b.n - m
    buf := [] }

/-- A step writes its bytes at its destination (R152): to storage at once, to the keep store or the fabric with a wait. -/
def stepWrite (t : ThreadId) (b : BlockState) (bs : List Byte) (s : State) : StepRes :=
  let l := accLevel s t
  match checkAccess s t l .blockWrite b.a bs.length 0 with
  | .error x => .fault x s
  | .ok r =>
    let hits := dataHits s t true b.a.toNat bs.length
    if hits ≠ 0 then .brk hits s
    else match r with
      | .host => match threadSend s t (.block t) b.a.toNat bs.length (some bs) with
        | some (_, s1) => .wait { b with buf := bs } s1
        | none => .wait { b with buf := bs } s
      | .keep =>
        if keepRefuses s then .fault { cause := 3, sub := 2, addr := b.a.setWidth 36 } (keepRefused s)
        else if keepFree s then .wait { b with buf := bs } (keepStart (.thread t) b.a.toNat bs (noteUndo t false b.a.toNat bs s))
        else .wait { b with buf := bs } s
      | _ => .ended (stepDone b bs) (writeTarget t r .normal b.a.toNat bs (noteUndo t (decide (r = .frame)) (physOf t b.a.toNat) bs s))

/-- The address a step reads from. -/
def stepSource (b : BlockState) : Cell :=
  match b.kind with
  | .move => b.x
  | _ => b.a

/-- What a step does with the bytes it read. -/
def stepUse (t : ThreadId) (b : BlockState) (bs : List Byte) (s : State) : StepRes :=
  match b.kind with
  | .csum => .ended (stepDone b bs) s
  | _ => stepWrite t b bs s

/-- A step reads its source (R152, R153, R155). MOVE's source is checked whole, then its destination, and then the bytes are read (DESIGN
CHOICE, notes/assumptions/107.md). -/
def stepRead (t : ThreadId) (b : BlockState) (s : State) : StepRes :=
  let l := accLevel s t
  let src := stepSource b
  let m := stepLen b
  match checkAccess s t l .blockRead src m 0 with
  | .error x => .fault x s
  | .ok r =>
    match (if b.kind = .move then (checkAccess s t l .blockWrite b.a m 0).map (fun _ => ()) else .ok ()) with
    | .error x => .fault x s
    | .ok _ =>
      let hits := dataHits s t false src.toNat m
      if hits ≠ 0 then .brk hits s
      else match r with
        | .host => match threadSend s t (.block t) src.toNat m none with
          | some (_, s1) => .wait b s1
          | none => .wait b s
        | _ =>
          let v := readTarget s t r .normal src.toNat m
          match readExc (src.setWidth 36) v.1 with
          | some x => .fault x v.2
          | none => stepUse t b (readBytes v.1) v.2

/-- The next step of a block instruction; one that has its bytes goes on to write them. -/
def blockStep (t : ThreadId) (b : BlockState) (s : State) : StepRes :=
  if b.buf ≠ [] then stepWrite t b b.buf s
  else match b.kind with
    | .fill => stepWrite t b ((cellBytes b.x).take (stepLen b)) s
    | _ => stepRead t b s

/-- Show a block instruction's progress on the stack (R156). -/
def showProgress (t : ThreadId) (b : BlockState) (s : State) : State := popPush t 3 [b.n, b.a, b.x] s

/-- What a block instruction that does not retire leaves on the stack: its progress (R157); an injected one leaves its operands (R465). -/
def leftProgress (t : ThreadId) (b : BlockState) (s : State) : State := if (s.thr t).inj.isSome then s else showProgress t b s

/-- What is left on the stack when a block instruction retires (R151, R155). -/
def blockLeaves (b : BlockState) : List Cell :=
  match b.kind with
  | .csum => [b.x &&& 0xFFFF]
  | _ => []

/-- After a step, does the instruction yield (R156)? DESIGN CHOICE (notes/assumptions/22.md). -/
def yieldsNow (b : BlockState) : Bool :=
  match b.y with
  | some k => decide (k ≤ 1)
  | none => false

/-- Does a debug halt make a thread's block instruction yield with its step, and retirement stand still, so that not even the last step
lets it retire (R460)? Not one that the debugger steps or injects (R464, R465). -/
def haltYields (s : State) (t : ThreadId) : Bool :=
  s.frozen && (s.thr t).inj.isNone && !(s.dbg.stepping && decide (s.dbg.sel.toNat = t.val))

/-- A block instruction yields: the stack shows its progress, and nothing of it is in flight (R156). -/
def blockYield (t : ThreadId) (b : BlockState) (s : State) : WRes :=
  .hold ((showProgress t b s).modThr t fun th => { th with pend := .none })

/-- Run a block instruction from what its current step comes to, step by step, until it retires, yields, waits or fails. What keeps it
from retiring when its last step has ended stops it there with its progress (R215, R467). A request that waits when the last step ends
finds it retired, not yielding (R156; DESIGN CHOICE, notes/assumptions/141.md). -/
def blockRun (t : ThreadId) : Nat → StepRes → WRes
  | _, .wait b s => .hold (s.modThr t fun th => { th with pend := .block b })
  | _, .fault x s => .trap x s
  | _, .brk hits s => .brk hits s
  | 0, .ended b s => .hold (showProgress t b s)
  | k + 1, .ended b s =>
    if haltYields s t then blockYield t b s
    else if b.n = 0 then
      retirePhase t (pcHits s t) (s.thr t).robPar (leftProgress t b s) (.next (popPush t 3 (blockLeaves b) s))
    else if yieldsNow b then blockYield t b s
    else
      let b1 := { b with y := b.y.map (· - 1) }
      match blockStep t b1 s with
      | .fault x s1 => .trap x (leftProgress t b1 s1)
      | .brk hits s1 => .brk hits (leftProgress t b1 s1)
      | r => blockRun t k r

/-- The first step of a block instruction, once the thread's stores have been accepted (R152). DESIGN CHOICE, unsafe (log entry 88):
one with n = 0, which has no first step, waits for them too; R151 says only that it retires in 1 cc. -/
def blockBody (t : ThreadId) (k : BlockKind) (y : Option Nat) (cs : List PCell) (s : State) : WRes :=
  match cs with
  | n :: a :: x :: _ =>
    let b : BlockState := { kind := k, x := x.val, a := a.val, n := n.val, buf := [], y := y }
    if !(storesOf s t).isEmpty then .hold s
    else if n.val = 0 then .next (popPush t 3 (blockLeaves b) s)
    else blockRun t n.val.toNat (blockStep t b s)
  | _ => .hold s

/-- What a block instruction that waited comes to with what its step comes to: the stack shows the progress of the steps before a
failing one (R157). A step that fails, or that comparators match, while a halt is under way yields so too, and fails again when the word
is executed again (R460). DEDUCED (notes/assumptions/101.md). -/
def blockOn (t : ThreadId) (b : BlockState) : StepRes → WRes
  | .fault x s => if haltYields s t then blockYield t b s else .trap x (leftProgress t b s)
  | .brk hits s => if haltYields s t then blockYield t b s else .brk hits (leftProgress t b s)
  | r => blockRun t b.n.toNat r

/-- A block instruction that waited goes on from what its step comes to, in a state whose comparators and whose reorder-buffer entry
are asked if it fails or retires (R152, R157, R215, R467). -/
def blockResume (t : ThreadId) (b : BlockState) (s : State) (r : StepRes) : State :=
  atRetirement t (pcHits s t) s (blockOn t b r)

/-- A step under way has its answer: the comparators that match its access by now come first (R467). -/
def blockAnswered (t : ThreadId) (b : BlockState) (hits : BitVec 8) (s : State) (r : StepRes) : State :=
  blockResume t b s (if hits ≠ 0 then .brk hits s else r)

/-- Is a thread's block instruction waiting with nothing of its own under way? -/
def blockIdle (s : State) (t : ThreadId) : Bool :=
  !(s.fab.out.any fun r => decide (r.use = .block t)) && !keepHas s (.thread t)

/-- Block instructions that waited for a free tag or for the keep store try again, and so does the boot ROM's copy. -/
def resumeBlocks (s : State) : State :=
  threadIds.foldl (fun acc t => match (acc.thr t).pend with
    | .block b =>
      if blockIdle acc t ∧ (storesOf acc t).isEmpty then
        (match ensureCur t false 3 acc with
          | some s1 => blockResume t b s1 (blockStep t b s1)
          | none => acc)
      else acc
    | .rom _ => if mayWake acc t then romAsk t acc else acc
    | _ => acc) s

/-- MOVE ( src dst n -- ) (R153). -/
def semMove (t : ThreadId) (y : Option Nat) : WordSem := WordSem.plain 3 0 (blockBody t .move y)
def execMove (t : ThreadId) (g : Guard) (y : Option Nat) (s : State) : Host.Outcome State Fault Refusal :=
  .next (runWord t g (semMove t y) s)

/-- FILL ( x dst n -- ) (R154). -/
def semFill (t : ThreadId) (y : Option Nat) : WordSem := WordSem.plain 3 0 (blockBody t .fill y)
def execFill (t : ThreadId) (g : Guard) (y : Option Nat) (s : State) : Host.Outcome State Fault Refusal :=
  .next (runWord t g (semFill t y) s)

/-- CSUM ( acc src n -- acc' ) (R155). -/
def semCsum (t : ThreadId) (y : Option Nat) : WordSem := WordSem.plain 3 1 (blockBody t .csum y)
def execCsum (t : ThreadId) (g : Guard) (y : Option Nat) (s : State) : Host.Outcome State Fault Refusal :=
  .next (runWord t g (semCsum t y) s)

end Sys2Proof.Machine
end

