-- ==== Sys2Proof/Machine/Clock.lean ====
section
/-! DEFINITION. The time keeper, the counts that its clock drives, and the ends of waits by their limits (R160 to R170, R251,
R435, R437, R471). -/

namespace Sys2Proof.Machine

/-! ### The timebase -/

/-- The slew of one cycle: sign(ADJ) × min(|ADJ|, 2^SLEW) (R163). -/
def slewStep (k : TimeKeeper) : Int :=
  let a := k.adj.toInt
  let m : Int := min a.natAbs (2 ^ k.slew.toNat)
  if a < 0 then -m else m

/-- What the timebase keeps of a sum, in units of 2⁻⁴⁰ ns: it is never negative, and SEC stays below 2⁴⁷ (R45, R48, R160). What
happens at either end the spec leaves open. DESIGN CHOICE (notes/assumptions/76.md). -/
def tbCut (v : Int) : Nat := v.toNat % (2 ^ 47 * secondUnits * 2 ^ 24)

/-- One cycle of the time-keeper clock (R160, R163). -/
def tkAdvance (k : TimeKeeper) : TimeKeeper :=
  let e := slewStep k
  { k with tb := tbCut ((k.tb + k.incr.toNat : Nat) + e * 2 ^ 24), adj := k.adj - BitVec.ofInt 48 e }

/-- One tick of the always-on clock in Sleep: INCR × 46,875 ÷ 64, rounded down; the slew stops (R435). -/
def tkTick (k : TimeKeeper) : TimeKeeper := { k with tb := tbCut (k.tb + k.incr.toNat * 46875 / 64 : Nat) }

/-! ### Counts that run with the core clock or the always-on clock -/

/-- A thread in a core cycle: a running leash and the limits of a CAS6 and of a customer request count down (R251, R141, R418). -/
def threadCycle (th : Thread) : Thread :=
  { th with
    leash := if th.leash.on then { th.leash with count := if th.leash.count = 0 then 0 else th.leash.count - 1 } else th.leash
    pend := match th.pend with
      | .cas6 ea (.taken (some n) stalled) => .cas6 ea (.taken (some (n - 1)) stalled)
      | .cust q (.accepted n) => .cust q (.accepted (n - 1))
      | p => p }

/-- An item at the end of a core cycle, which the count has already left behind: a current item's visit grows older (R388), the cycle is
noted from which on the launch time has been reached (R376), and the timebase in the first cycle, 4 cc or more after the retire of the
ending instruction, in which the order condition holds (R23). -/
def itemCycle (s : State) (it : Item) : Item :=
  let cycle := s.fetch.cycle - 1
  { it with
    visitCyc := match it.place with
      | .current _ => it.visitCyc + 1
      | _ => it.visitCyc
    reached := if it.launch.any fun d => decide (d.val ≤ (s.now : Int)) then some (it.reached.getD cycle) else none
    ordered := if it.place = .ready ∧ it.readyCyc + 4 ≤ cycle ∧ inOrder s it then some (it.ordered.getD s.now) else it.ordered }

/-- A core's watchdog in a tick: it counts while the core is at Run (R437, R471). -/
def wdgTick (k : Core) : Core :=
  if k.enabled ∧ k.rest = .run ∧ k.wdg.stage ≠ .off then
    { k with wdg := { k.wdg with count := if k.wdg.count = 0 then 0 else k.wdg.count - 1, ticked := true } }
  else k

/-- Do the counts run: the tile has booted and no debug halt freezes them (R460)? DEDUCED (notes/assumptions/45.md). -/
def countsRun (s : State) : Bool := decide (s.boot = .run) && !s.frozen

/-- Does a thread rest at Idle: not enabled, stopped, or parked with nothing that ends its wait (R427)? -/
def threadIdle (s : State) (t : ThreadId) : Bool :=
  let th := s.thr t
  !th.en || th.stopped || (decide (parkCode th.pend ≠ 0) && (wakeNow t s).isNone)

/-- Do the conditions of R428 for Nap hold for a core in this cycle? A fenced core never rests (DESIGN CHOICE,
notes/assumptions/100.md). -/
def napReady (s : State) (c : CoreId) : Bool :=
  let k := s.cor c
  decide (s.boot = .run) && coreUp s c && !k.det && !k.act && !k.switching && k.sb.isEmpty && !s.frozen &&
    (coreThreads c).all fun t => threadIdle s t && !(s.thr t).leash.on

/-- What stands for a thread that is enabled and not stopped: its event latch, the item in its slot, a tag granted to it (R437). -/
def threadCalls (s : State) (t : ThreadId) : List CoreCall :=
  let th := s.thr t
  let granted := (currentItem s t).bind fun it => it.tag.filter fun g => decide (g.2 = .granted)
  if th.en && !th.stopped then
    (if th.ev then [.event t] else []) ++ th.slot.toList.map (.slot t) ++ granted.toList.map fun g => .tag t g.1
  else []

/-- What stands for a core's threads. -/
def standingCalls (s : State) (c : CoreId) : List CoreCall := (coreThreads c).flatMap (threadCalls s)

/-- The calls that are no news to a core after a cycle: at Run all that stand, in a rest what it knew and still stands.
DEDUCED (notes/assumptions/99.md). -/
def callsSeen (s : State) (c : CoreId) : List CoreCall :=
  let k := s.cor c
  let now := standingCalls s c
  if k.rest = .run then now else k.seen.filter now.contains

/-- A core in a core cycle: for how long the conditions of Nap have held, and for how long it has napped (R428).
DEDUCED (notes/assumptions/59.md). -/
def restCycle (s : State) (c : CoreId) : Core :=
  let k := s.cor c
  { k with
    idle := if napReady s c then k.idle + 1 else 0
    rested := if k.rest = .nap then k.rested + 1 else 0
    seen := callsSeen s c }

/-- The ports in a core cycle: what lasts one cycle falls, and the next beat of a burst and the next CH_DONE are driven; in a debug
halt the egress port holds (R417, R460, R475, R476, R478, R480). -/
def portsCycle (isFrozen : Bool) (p : Ports) : Ports :=
  { p with
    idescStValid := false
    semWdr := []
    ownReset := none
    chDone := p.chDone.drop 1
    edesc := if isFrozen then p.edesc else none
    edata := if isFrozen then p.edata else p.edata.drop 1 }

/-! ### The scrubber's walkers (R343, R344) -/

/-- Is a walker enabled, with a memory that is served and not being overwritten (R343 to R345)? Walker 0 is SH, 1 is KN, 2 + c is SPc. -/
def walkerServed (s : State) (w : Nat) : Bool :=
  if w = 0 then s.ecc.enSh
  else if w = 1 then s.ecc.enKn && !s.knl.wiping
  else if h : w - 2 < 16 then s.ecc.enSp && !spadGone s ⟨w - 2, h⟩
  else false

/-- The interval counts in a core cycle: each runs to 0 and stands there until the walker has taken its step; that of a walker that is
disabled, or whose memory is not served, stands at a whole interval, so that it starts afresh (R343). -/
def walkCycle (s : State) : Ecc :=
  { s.ecc with left := (List.range 18).map fun w =>
      if walkerServed s w then s.ecc.left.getD w 0 - 1 else walkInterval s.ecc.rate }

/-- The intervals of some walkers start afresh in this cycle (R343). -/
def walkAfresh (which : Nat → Bool) (e : Ecc) : Ecc :=
  { e with left := (List.range 18).map fun w => if which w then walkInterval e.rate else e.left.getD w 0 }

/-- The fields of SCRUB.CTL are written: the interval of a walker that they enable starts afresh in the cycle after this one (R343). -/
def scrubControl (rate : BitVec 5) (sp kn sh : Bool) (e : Ecc) : Ecc :=
  let on := fun (w : Nat) => if w = 0 then sh && !e.enSh else if w = 1 then kn && !e.enKn else sp && !e.enSp
  { e with
    enSp := sp
    enKn := kn
    enSh := sh
    rate := rate
    left := (List.range 18).map fun w => if on w then walkInterval rate + 1 else e.left.getD w 0 }

/-! ### The ports outside -/

/-- The oldest request that the fabric has not taken, of those that may be presented, is taken (R479, R480). -/
def takeFirst (held : FabReq → Bool) : List FabReq → List FabReq
  | [] => []
  | r :: rest => if r.taken || held r then r :: takeFirst held rest else { r with taken := true } :: rest

/-- The fabric's requests in a core cycle: those it has taken grow older, and with FAB_RDY it takes the one at the port (R479). -/
def fabCycle (rdy : Bool) (held : FabReq → Bool) (f : Fab) : Fab :=
  let out := f.out.map fun r => if r.taken then { r with age := r.age + 1 } else r
  { f with out := if rdy then takeFirst held out else out }

/-- The limit of a CAS6: TIMEOUT cycles, none for 0, as THR.SEMCTL stands when the request is sent (R141, R142). That it is sent in the
cycle in which the unit takes it is a DESIGN CHOICE (notes/assumptions/135.md). -/
def cas6Limit (th : Thread) : Option Nat := if th.semTimeout = 0 then none else some th.semTimeout.toNat

/-- The semaphore unit takes the request at its port (R480). -/
def semTake (s : State) : State :=
  match s.ports.semReq with
  | [] => s
  | q :: rest =>
    if Config.semRdy s.freeCtr then
      { s.modThr q.thread fun th => { th with pend := match th.pend with
          | .cas6 ea .offered => .cas6 ea (.taken (cas6Limit th) false)
          | p => p } with
        ports := { s.ports with semReq := rest } }
    else s

/-- A CAS6 that the unit has taken, with a TIMEOUT other than 0: the unit may stall its read, which parks the thread (R141). No signal says
when: a free value, by DESIGN CHOICE (notes/assumptions/135.md). -/
def stallThread (stalls : Bool) (th : Thread) : Thread :=
  { th with pend := match th.pend with
      | .cas6 ea (.taken (some n) false) => .cas6 ea (.taken (some n) stalls)
      | p => p }

/-- The customer port in a core cycle: with CH_RDY the customer logic accepts the request that stands there. In a debug halt only that of
a stepped word is served (R417, R418, R460, R464). -/
def custCycle (s : State) : State :=
  match s.ports.chReq with
  | some q => if servesNow s (custThreadOf q.id) && Config.chRdy s.freeCtr then custAccept s else s
  | none => s

/-- The ports outside in a core cycle: no debug halt stops the fabric's and the semaphore unit's (R145, R460, R479, R480).
DEDUCED (notes/assumptions/45.md). -/
def outsideCycle (s : State) : State :=
  let stall := fun (t : ThreadId) => match (s.thr t).pend with
    | .cas6 _ _ => stallThread (Config.semStalls s.freeCtr t.val) (s.thr t)
    | _ => s.thr t
  let s1 := semTake { s with threads := allThreads stall, fab := fabCycle (Config.fabRdy s.freeCtr) (reqHeld s) s.fab }
  { custCycle s1 with freeCtr := s.freeCtr + 1 }

/-- A set of a core's D-cache is invalidated (R128, R132). -/
def clearSet (n : Nat) (k : Core) : Core := { k with dlines := k.dlines.filter fun l => decide ((l.addr / 48) % 128 ≠ n) }

/-- A FLUSH in a core cycle: it invalidates its next set, and retires with the last. A fill that completed into this set before the cycle
ended is invalidated with it, one into a set that it has passed stays (R132). DEDUCED (notes/assumptions/66.md). -/
def flushThread (s : State) (t : ThreadId) : State :=
  match mayWake s t, (s.thr t).pend with
  | true, .flush n =>
    let s1 := s.modCor t.core (clearSet n)
    if n < 127 then s1.modThr t fun th => { th with pend := .flush (n + 1) } else atRetirement t (pcHits s t) s1 (.next s1)
  | _, _ => s

/-- Every FLUSH in a core cycle. -/
def flushCycle (s : State) : State := threadIds.foldl flushThread s

/-- The counts that run with the core clock, where they run (R251, R388, R417, R428). -/
def countCycle (s : State) : State :=
  { s with
    threads := s.threads.map threadCycle
    cores := allCores (restCycle s)
    fetch := { s.fetch with items := s.fetch.items.map (itemCycle s) } }

/-- A cycle of the core clock: the cores' copies follow the timebase (R167), the counts move, and what the cycle brings from outside and
what a FLUSH does in it come after them. No count advances in the
cycles of a debug halt (R460), so that c₀ of R221, counted in these cycles, need not move (R461), but those of the fabric, which no
halt freezes (R479; DEDUCED, notes/assumptions/45.md); a halt starts the count of the Nap conditions again (R428). -/
def coreCycle (s : State) : State :=
  let s0 : State := { s with
    tk := { s.tk with prev2 := s.tk.prev1, prev1 := s.now }
    cores := s.cores.map fun k => { k with btbMark := [] }
    ports := portsCycle s.frozen s.ports }
  let s1 : State :=
    if s.frozen then { s0 with cores := s0.cores.map fun k => { k with idle := 0 } }
    else if uncoreRuns s then
      let s2 : State := { s0 with
        fetch := { s0.fetch with cycle := s0.fetch.cycle + 1 }
        ecc := if s.resetHeld then s0.ecc else walkCycle s0 }
      if countsRun s then countCycle s2 else s2
    else { s0 with cores := allCores (restCycle s0) }
  if uncoreRuns s then flushCycle (outsideCycle s1) else s1

/-- The core cycles that a time-keeper cycle completes: the core clock is 3 GHz ÷ d, the time keeper's 1.5 GHz (R424). -/
def coreCycles (s : State) : State :=
  let d := clkDiv s.profile.clk
  let acc := s.tk.coreAcc + 2
  if d ≤ acc then coreCycle { s with tk := { s.tk with coreAcc := acc - d } }
  else { s with tk := { s.tk with coreAcc := acc } }

/-- The always-on ticks that a time-keeper cycle completes: 64 ticks in 46,875 cycles (R425, R435). -/
def aonTicks (s : State) : State :=
  let acc := s.tk.aonAcc + 64
  if 46875 ≤ acc then
    let s1 := { s with tk := { s.tk with aonAcc := acc - 46875 } }
    if countsRun s then { s1 with cores := s1.cores.map wdgTick } else s1
  else { s with tk := { s.tk with aonAcc := acc } }

/-- Is the PLL stopped, so that the always-on domain keeps the time (R426, R435)? -/
def State.pllStopped (s : State) : Bool := decide (s.pwr.rest = .sleep) && !s.emulates

/-- STEPERR or BUSERR: source 34 rises (R266). -/
def tkError (s : State) : State := raiseSrc 34 s

/-- What a FOLLOW load loads, in units of 2⁻¹⁶ ns: the bus value plus 4 × INCR, hidden bits cleared; none where the bus value is
not normal or its SEC is or becomes too large (R165). -/
def followValue (k : TimeKeeper) : Option Nat :=
  let v := k.bushi.toNat * secondUnits + k.buslo.toNat + 4 * k.incr.toNat / 2 ^ 24
  if secondUnits ≤ k.buslo.toNat ∨ k.bushi.getLsbD 47 ∨ 2 ^ 47 ≤ v / secondUnits then none else some v

/-- Is the coming cycle the one of a FOLLOW load (R165)? -/
def loadDue (k : TimeKeeper) : Bool := decide (k.load = some 0)

/-- The counts of one cycle: to a FOLLOW load, and since the last edge (R165, R166). -/
def tkCounts (k : TimeKeeper) : TimeKeeper :=
  { k with load := k.load.bind fun n => if n = 0 then none else some (n - 1), ppsAge := k.ppsAge.map (· + 1) }

/-- The timebase in one cycle: the FOLLOW load in its cycle, with no slew step, and otherwise INCR and the slew; a refused load
sets BUSERR and the timebase runs on (R160, R163, R165). -/
def tkCycle (s : State) : State :=
  let k := tkCounts s.tk
  match loadDue s.tk, followValue s.tk with
  | false, _ => { s with tk := tkAdvance k }
  | true, some v => { s with tk := { k with tb := v * 2 ^ 24 } }
  | true, none => tkError { s with tk := { tkAdvance k with buserr := true } }

/-- The second in which AUTH ARG 0 is refused runs on: one cycle is 64 units and one AON tick 46,875 (R425, R492). -/
def barRun (n : Nat) (s : State) : State := { s with lc := { s.lc with blocked := s.lc.blocked - n } }

/-- A cycle of the time keeper, or in Sleep a tick of the always-on clock (R160, R435). A tile that is Off or held in reset
keeps no time. DESIGN CHOICE (notes/assumptions/10.md). -/
def timeKeeperCycle (s : State) : State :=
  match s.boot with
  | .held _ => s
  | _ =>
    if s.pwr.rest = .off then s
    else if s.pllStopped then barRun 46875 { s with tk := tkTick s.tk }
    else barRun 64 (tkCycle (aonTicks (coreCycles s)))
def execTimeKeeperCycle (s : State) : Host.Outcome State Fault Refusal := .next (timeKeeperCycle s)

/-! ### Steps, captures and FOLLOW loads -/

/-- STEPGO: the interval of TK.STEPHI and TK.STEPLO is added under R49, unless the sum would have negative SEC or a FOLLOW load
takes place in the same cycle, the coming one (R164). DESIGN CHOICE (notes/assumptions/11.md). -/
def timeStep (s : State) : State :=
  let d := dblOf (s.now + ({ hi := s.tk.stephi, lo := s.tk.steplo } : Dbl).val)
  if d.hi.getLsbD 47 ∨ (loadDue s.tk ∧ (followValue s.tk).isSome) then tkError { s with tk := { s.tk with steperr := true } }
  else { s with tk := { s.tk with tb := d.val.toNat * 2 ^ 24 + s.tk.tb % 2 ^ 24 } }
def execTimeStep (s : State) : Host.Outcome State Fault Refusal := .next (timeStep s)

/-- An edge of TIME_PPS: both captures, PPS and source 32; in FOLLOW a load follows (R165). In Sleep it is not captured
(R435). DEDUCED (notes/assumptions/71.md). -/
def ppsEdge (bus : BitVec 96) (s : State) : State :=
  if s.pllStopped ∨ s.pwr.rest = .off then s
  else
    let d := dblOf s.now
    raiseSrc 32 { s with tk := { s.tk with
      ppshi := d.hi, ppslo := d.lo, bushi := bus.extractLsb' 48 48, buslo := bus.extractLsb' 0 48, pps := true,
      load := if s.tk.mode = .follow then some 3 else s.tk.load, ppsAge := some 0 } }
def execPpsEdge (bus : BitVec 96) (s : State) : Host.Outcome State Fault Refusal := .next (ppsEdge bus s)

/-- FOLLOW_LOAD: the fourth time-keeper cycle after the edge, which loads the timebase (R165); nothing where no load is due in
the coming cycle. -/
def followLoad (s : State) : State := if loadDue s.tk then timeKeeperCycle s else s
def execFollowLoad (s : State) : Host.Outcome State Fault Refusal := .next (followLoad s)

/-- The cycles without an edge after which MISS sets (R166). -/
def missCycles : Nat := 1500000000

/-- No edge came for 1.5 × 10⁹ cycles in CAPTURE or FOLLOW: MISS and source 33, once for each edge (R166); in Sleep the interval
is not counted (R435). From reset the interval counts from the reset. DEDUCED (notes/assumptions/77.md). -/
def ppsMiss (s : State) : State :=
  if s.tk.mode ≠ .free ∧ s.tk.ppsAge.any (fun n => decide (missCycles ≤ n)) then
    raiseSrc 33 { s with tk := { s.tk with miss := true, ppsAge := none } }
  else s
def execPpsMiss (s : State) : Host.Outcome State Fault Refusal := .next (ppsMiss s)

/-! ### Limits -/

/-- A parked thread tests its wait: at its limit, or at its event, which wins (R170, R176). -/
def execWaitLimit (t : ThreadId) (s : State) : Host.Outcome State Fault Refusal := .next (wake t s)

end Sys2Proof.Machine
end

