-- ==== Sys2Proof/Machine/Time.lean ====
section
/-! DEFINITION. The time instructions (R168, R169, R45 to R51). -/

namespace Sys2Proof.Machine

/-- The double on top of a stack's cells, high cell on top (R36). -/
def dblTop (cs : List PCell) : Dbl := { hi := (cs.getD 0 (PCell.of 0)).val, lo := (cs.getD 1 (PCell.of 0)).val }

/-- TNOW ( -- t ) (R169). -/
def semTnow (t : ThreadId) : WordSem := WordSem.plain 0 2 fun _ s =>
  let d := dblOf (s.copyNow t.core)
  .next (popPush t 0 [d.hi, d.lo] s)
def execTnow (t : ThreadId) (g : Guard) (s : State) : Host.Outcome State Fault Refusal := .next (runWord t g (semTnow t) s)

/-- TADD ( t1 t2 -- t ) (R49, R169). -/
def semTadd (t : ThreadId) : WordSem := WordSem.plain 4 2 fun cs s =>
  timeResult t 4 ((dblTop (cs.drop 2)).val + (dblTop cs).val) s
def execTadd (t : ThreadId) (g : Guard) (s : State) : Host.Outcome State Fault Refusal := .next (runWord t g (semTadd t) s)

/-- TSUB ( t1 t2 -- t ) (R49, R169). -/
def semTsub (t : ThreadId) : WordSem := WordSem.plain 4 2 fun cs s =>
  timeResult t 4 ((dblTop (cs.drop 2)).val - (dblTop cs).val) s
def execTsub (t : ThreadId) (g : Guard) (s : State) : Host.Outcome State Fault Refusal := .next (runWord t g (semTsub t) s)

/-- The cell TCMP pushes (R169). -/
def timeOrder (a b : Int) : Cell := if a < b then BitVec.allOnes 48 else if a = b then 0 else 1

/-- TCMP ( t1 t2 -- c ) (R169). -/
def semTcmp (t : ThreadId) : WordSem := WordSem.plain 4 1 fun cs s =>
  .next (popPush t 4 [timeOrder (dblTop (cs.drop 2)).val (dblTop cs).val] s)
def execTcmp (t : ThreadId) (g : Guard) (s : State) : Host.Outcome State Fault Refusal := .next (runWord t g (semTcmp t) s)

/-- An interval times a rate ratio, rounded to the nearest unit and to the even one halfway (R50, R51). -/
def scaleTime (v : Int) (r : Cell) : Int :=
  let p := v * r.toNat
  let q := p.fdiv (2 ^ 41)
  let rem := p.fmod (2 ^ 41)
  if 2 * rem < 2 ^ 41 then q
  else if 2 ^ 41 < 2 * rem then q + 1
  else if q % 2 = 0 then q else q + 1

/-- TSCALE ( t r -- t' ) (R51, R169). -/
def semTscale (t : ThreadId) : WordSem := WordSem.plain 3 2 fun cs s =>
  timeResult t 3 (scaleTime (dblTop (cs.drop 1)).val (cs.getD 0 (PCell.of 0)).val) s
def execTscale (t : ThreadId) (g : Guard) (s : State) : Host.Outcome State Fault Refusal := .next (runWord t g (semTscale t) s)

end Sys2Proof.Machine
end

