-- ==== Sys2Proof/Machine/Event.lean ====
section
/-! DEFINITION. WAITT, WFE and SEV (R170 to R177). -/

namespace Sys2Proof.Machine

/-- The exception of a word whose operand or context is refused: bus error, subcode OPERAND (R259). -/
def excOperand : Exc := { cause := 3, sub := 7, addr := 0 }

/-- WAITT ( t -- ) (R172). -/
def semWaitt (t : ThreadId) : WordSem := WordSem.plain 2 0 fun cs s =>
  if limitReached s t.core (dblTop cs) then .next (popPush t 2 [] s) else .hold (park t (.waitt (dblTop cs)) s)
def execWaitt (t : ThreadId) (g : Guard) (s : State) : Host.Outcome State Fault Refusal := .next (runWord t g (semWaitt t) s)

/-- WFE ( tl -- f ) (R173, R176). -/
def semWfe (t : ThreadId) : WordSem := WordSem.plain 2 1 fun cs s =>
  if (s.thr t).ev then .next ((popPush t 2 [flagCell true] s).modThr t fun th => { th with ev := false })
  else if limitReached s t.core (dblTop cs) then .next (popPush t 2 [flagCell false] s)
  else .hold (park t (.wfe (dblTop cs)) s)
def execWfe (t : ThreadId) (g : Guard) (s : State) : Host.Outcome State Fault Refusal := .next (runWord t g (semWfe t) s)

/-- SEV ( n -- ) (R174). -/
def semSev (t : ThreadId) : WordSem := WordSem.plain 1 0 fun cs s =>
  let n := (cs.getD 0 (PCell.of 0)).val
  if h : n.toNat < 128 then
    let who : ThreadId := ⟨n.toNat, h⟩
    if rightsLevel s t = .T ∧ who.core ≠ t.core then .trap { cause := 5, sub := 1, addr := n.setWidth 36 } s
    else .next (signalEvent who (popPush t 1 [] s))
  else .trap excOperand s
def execSev (t : ThreadId) (g : Guard) (s : State) : Host.Outcome State Fault Refusal := .next (runWord t g (semSev t) s)

end Sys2Proof.Machine
end

