-- ==== Sys2Proof/Machine/Flow.lean ====
section
/-! DEFINITION. Control transfers, KILL and BKPT (R108 to R115, R64 to R66). -/

namespace Sys2Proof.Machine

/-- The target of BRS and CALLS: the word's address + 1 + e, modulo 2²⁰ (R64, R66). -/
def relTarget (pc : WAddr) (e : BitVec 8) : WAddr := pc + 1 + e.signExtend 20

/-- BRS e (R109). -/
def semBrs (t : ThreadId) (e : BitVec 8) : WordSem :=
  { WordSem.plain 0 0 (fun _ s => .jump (relTarget (s.thr t).arch.pc e) s) with transfer := some .branch }
def execBrs (t : ThreadId) (g : Guard) (e : BitVec 8) (s : State) : Host.Outcome State Fault Refusal :=
  .next (runWord t g (semBrs t e) s)

/-- Push the ADDR entry of the word's own address + 1 and continue at a target; a full return stack faults with OVER (R109,
R110, R236). n operand cells are popped. -/
def callTo (t : ThreadId) (n : Nat) (target : WAddr) (s : State) : WRes :=
  if rsRoom s t 1 = false then .trap excOver s
  else .jump target (curReplace t true 0 [PCell.of (addrEntry ((s.thr t).arch.pc + 1))] (popPush t n [] s))

/-- CALLS e (R109). -/
def semCalls (t : ThreadId) (e : BitVec 8) : WordSem :=
  { WordSem.plain 0 0 (fun _ s => callTo t 0 (relTarget (s.thr t).arch.pc e) s) with transfer := some .call }
def execCalls (t : ThreadId) (g : Guard) (e : BitVec 8) (s : State) : Host.Outcome State Fault Refusal :=
  .next (runWord t g (semCalls t e) s)

/-- Is a cell no program-word address: a bit of [47:20] is set (R34)? -/
def badWordAddr (a : Cell) : Bool := decide (2 ^ 20 ≤ a.toNat)

/-- BR ( addr -- ) (R110). -/
def semBr (t : ThreadId) : WordSem :=
  { WordSem.plain 1 0 (fun cs s => match cs with
      | a :: _ =>
        if badWordAddr a.val then .trap { cause := 3, sub := 0, addr := a.val.setWidth 36 } s
        else .jump (a.val.extractLsb' 0 20) (popPush t 1 [] s)
      | [] => .hold s) with transfer := some .branch }
def execBr (t : ThreadId) (g : Guard) (s : State) : Host.Outcome State Fault Refusal := .next (runWord t g (semBr t) s)

/-- CALL ( addr -- ) rs ( -- ra ): the check of R34 comes before the limit of the return stack (R110, R116). -/
def semCall (t : ThreadId) : WordSem :=
  { WordSem.plain 1 0 (fun cs s => match cs with
      | a :: _ =>
        if badWordAddr a.val then .trap { cause := 3, sub := 0, addr := a.val.setWidth 36 } s
        else callTo t 1 (a.val.extractLsb' 0 20) s
      | [] => .hold s) with transfer := some .call }
def execCall (t : ThreadId) (g : Guard) (s : State) : Host.Outcome State Fault Refusal := .next (runWord t g (semCall t) s)

/-- What RET finds on its way down the return stack: the state with the COUNT entries and the ADDR entry popped and the
return address, a fault, or a demand fill that waits. -/
inductive RetRes where
  | to (pc : WAddr) (s : State)
  | fault (x : Exc) (s : State)
  | wait

/-- RET's loop over the top entries: COUNT entries are discarded until an ADDR entry gives the return address (R111). -/
def retLoop (t : ThreadId) : Nat → State → RetRes
  | 0, s => .fault { cause := 8, sub := 1, addr := 0 } s
  | n + 1, s =>
    if curDepth s t true ≤ 0 then .fault { cause := 8, sub := 1, addr := 0 } s
    else match ensureCur t true 1 s with
      | none => .wait
      | some s1 =>
        let top := curTop s1 t true 1
        match readFault true top, top with
        | some x, _ => .fault x s1
        | none, c :: _ =>
          let s2 := curReplace t true 1 [] s1
          if entryKind c.val = 2 then retLoop t n s2
          else if entryKind c.val = 1 then .to (c.val.extractLsb' 0 20) s2
          else .fault { cause := 8, sub := 2, addr := 0 } s1
        | none, [] => .wait

/-- RET rs ( ra -- ): a RET that faults discards nothing (R111). -/
def semRet (t : ThreadId) : WordSem :=
  { WordSem.plain 0 0 (fun _ s =>
      match retLoop t ((curDepth s t true).toNat + 1) s with
      | .to pc s' => .jump pc s'
      | .fault x s' => .trap x { s' with threads := s.threads }
      | .wait => .hold s) with transfer := some .ret }
def execRet (t : ThreadId) (g : Guard) (s : State) : Host.Outcome State Fault Refusal := .next (runWord t g (semRet t) s)

/-- A COUNT entry (R89). -/
def countEntry (n : Nat) (owner : WAddr) : Cell := 2#2 ++ BitVec.ofNat 26 n ++ owner

/-- The first arrival at a NEXT (R112). -/
def nextFirst (t : ThreadId) (f : BitVec 8) (s : State) : WRes :=
  if curDepth s t false < 1 then .trap { cause := 7, sub := 0, addr := 0 } s
  else match ensureCur t false 1 s with
    | none => .hold s
    | some s1 =>
      let top := curTop s1 t false 1
      match readFault false top, top with
      | some x, _ => .trap x s1
      | none, n :: _ =>
        let a := (s1.thr t).arch.pc
        if n.val = 0 then .next (popPush t 1 [] s1)
        else if rsRoom s1 t 1 = false then .trap excOver s1
        else .jump (a - f.setWidth 20)
          (curReplace t true 0 [PCell.of (countEntry (min (n.val.toNat - 1) 67108863) a)] (popPush t 1 [] s1))
      | none, [] => .hold s1

/-- NEXT f (R112): the top entry is tested for poison before its kind and owner are used. -/
def semNextW (t : ThreadId) (f : BitVec 8) : WordSem :=
  { WordSem.plain 0 0 (fun _ s =>
      if curDepth s t true ≤ 0 then nextFirst t f s
      else match ensureCur t true 1 s with
        | none => .hold s
        | some s1 =>
          let top := curTop s1 t true 1
          match readFault true top, top with
          | some x, _ => .trap x s1
          | none, c :: _ =>
            let a := (s1.thr t).arch.pc
            if entryKind c.val = 2 ∧ c.val.extractLsb' 0 20 = a then
              (if c.val.extractLsb' 20 26 = 0 then .next (curReplace t true 1 [] s1)
               else .jump (a - f.setWidth 20)
                (curReplace t true 1 [PCell.of (countEntry ((c.val.extractLsb' 20 26).toNat - 1) a)] s1))
            else nextFirst t f s1
          | none, [] => .hold s1) with transfer := some .branch }
def execNextW (t : ThreadId) (g : Guard) (f : BitVec 8) (s : State) : Host.Outcome State Fault Refusal :=
  .next (runWord t g (semNextW t f) s)

/-- KILL (R114); a stepped KILL takes READY with it (R464). -/
def semKill (t : ThreadId) : WordSem :=
  WordSem.plain 0 0 fun _ s =>
    let s1 := stopThread t s
    .next (if s1.dbg.stepping then { s1 with dbg := { s1.dbg with selReady := false } } else s1)
def execKill (t : ThreadId) (g : Guard) (s : State) : Host.Outcome State Fault Refusal := .next (runWord t g (semKill t) s)

/-- BKPT: the breakpoint exception, or a halt of the tile on a core whose BRKHALT is 1 while a debugger is attached (R115,
R459). -/
def semBkpt (t : ThreadId) : WordSem :=
  WordSem.plain 0 0 fun _ s =>
    if (s.cor t.core).brkhalt && s.dbg.attached then .halt s
    else .trap { cause := 0x0F, sub := 0, addr := 0 } s
def execBkpt (t : ThreadId) (g : Guard) (s : State) : Host.Outcome State Fault Refusal := .next (runWord t g (semBkpt t) s)

end Sys2Proof.Machine
end

