-- ==== Sys2Proof/Machine/Levels.lean ====
section
/-! DEFINITION. Gates, RETI and the leash instructions (R238 to R258, R280). -/

namespace Sys2Proof.Machine

/-- A gate fault (R242). -/
def gateFault (sub : BitVec 4) (addr : BitVec 36) : Exc := { cause := 9, sub := sub, addr := addr }

/-- The fields of a gate entry (R239). -/
def GateEntry.valid (e : GateEntry) : Bool := e.enta.getLsbD 47
def GateEntry.lvl (e : GateEntry) : BitVec 2 := e.enta.extractLsb' 45 2
def GateEntry.narg (e : GateEntry) : Nat := (e.enta.extractLsb' 42 3).toNat
def GateEntry.nres (e : GateEntry) : BitVec 2 := e.enta.extractLsb' 40 2
def GateEntry.isPtr (e : GateEntry) (i : Nat) : Bool := e.enta.getLsbD (33 + i)
def GateEntry.xlen (e : GateEntry) : Nat := (e.enta.extractLsb' 21 12).toNat
def GateEntry.pc (e : GateEntry) : WAddr := e.enta.extractLsb' 0 20
def GateEntry.fromS (e : GateEntry) : Bool := e.entb.getLsbD 45
def GateEntry.fromT (e : GateEntry) : Bool := e.entb.getLsbD 44
def GateEntry.osoff (e : GateEntry) : Nat := (e.entb.extractLsb' 14 14).toNat
def GateEntry.rsoff (e : GateEntry) : Nat := (e.entb.extractLsb' 0 14).toNat

/-- The data window of a level (R237): lowest and highest byte. -/
def dataWindow (th : Thread) : Level → BitVec 36 × BitVec 36
  | .T => (th.dwloT, th.dwhiT)
  | _ => (th.dwloS, th.dwhiS)

/-- Does a pointer argument fail check 5 of R242? -/
def badPointer (th : Thread) (l : Level) (xlen : Nat) (p : Cell) : Bool :=
  let w := dataWindow th l
  upperBits p || decide (p.toNat < w.1.toNat ∨ w.2.toNat < p.toNat + xlen)

/-- Checks 5 of R242 over the arguments, argument 0 first; a pointer's value is read (R208). -/
def pointerFault (th : Thread) (l : Level) (e : GateEntry) : List (PCell × Nat) → Option Exc
  | [] => none
  | (c, i) :: rest =>
    if e.isPtr i then
      match readFault false [c] with
      | some x => some x
      | none =>
        if badPointer th l e.xlen c.val then some (gateFault 4 (c.val.setWidth 36)) else pointerFault th l e rest
    else pointerFault th l e rest

/-- Checks 1 to 3 of R242, and the target level. -/
def gateTarget (e : GateEntry) (l : Level) : Except Exc Level :=
  if e.valid = false then .error (gateFault 0 0)
  else if (if l = .T then e.fromT else e.fromS) = false then .error (gateFault 1 0)
  else match levelOf e.lvl with
    | none => .error (gateFault 2 0)
    | some tgt => if levelNum l < levelNum tgt then .ok tgt else .error (gateFault 2 0)

/-- The target's stacks at a gate, and whether check 6 of R242 fails. -/
def gateStacks (e : GateEntry) (k : LevelStacks) : LevelStacks × Bool :=
  let ob := k.os.low.toNat + 6 * e.osoff
  let rb := k.rs.low.toNat + 6 * e.rsoff
  let os : Stk := { k.os with base := BitVec.ofNat 17 ob, sp := BitVec.ofNat 17 ob, res := [] }
  let rs : Stk := { k.rs with base := BitVec.ofNat 17 rb, sp := BitVec.ofNat 17 rb, res := [] }
  ({ os := os, rs := rs }, decide (k.os.top < ob ∨ k.rs.top < rb ∨ k.os.top < ob + 6 * e.narg))

/-- The steps of R241. -/
def gateEnter (t : ThreadId) (k : BitVec 8) (e : GateEntry) (tgt : Level) (area : LevelStacks) (args : List PCell) (s : State) :
    WRes :=
  let l := curLevel s t
  let pc := (s.thr t).arch.pc
  let s1 := curReplace t false e.narg [] s
  let link : GLink := { valid := true, caller := l, nres := e.nres, frames := 0, gate := k, rpc := pc + 1 }
  let s2 := s1.modArch t fun a => { (a.setStk tgt area).setGlink tgt link with level := tgt }
  .jump e.pc (replaceTop t tgt false 0 args s2)

/-- GATE k (R241, R242). -/
def semGate (t : ThreadId) (k : BitVec 8) : WordSem :=
  { WordSem.plain 0 0 (fun _ s =>
      let e := smGet GateEntry.boot s.gates k.toNat
      let l := curLevel s t
      match gateTarget e l with
      | .error x => .trap x s
      | .ok tgt =>
        if curDepth s t false < e.narg then .trap (gateFault 3 0) s
        else match ensureCur t false e.narg s with
          | none => .hold s
          | some s1 =>
            let args := curTop s1 t false e.narg
            match pointerFault (s1.thr t) l e (args.zip (List.range e.narg)) with
            | some x => .trap x s1
            | none =>
              let st := gateStacks e ((s1.thr t).arch.stk tgt)
              if st.2 then .trap (gateFault 5 0) s1 else gateEnter t k e tgt st.1 args s1) with
    allowed := fun l => decide (l ≠ .M) }
def execGate (t : ThreadId) (g : Guard) (k : BitVec 8) (s : State) : Host.Outcome State Fault Refusal :=
  .next (runWord t g (semGate t k) s)

/-- The thread after a GRET from a level to its caller: the stacks of the level, of those above it and of every other level above the
restored one are emptied; the linkages of the level and of those above it are cleared (R236, R244). -/
def gretArch (a : Arch) (l caller : Level) : Arch := { (((a.emptyAbove caller).emptyLevel l).setGlink l .clear).dropAbove l with level := caller }

/-- GRET (R244). A result cell that is poisoned or fails its parity moves as it is. DEDUCED (notes/assumptions/25.md). -/
def semGret (t : ThreadId) : WordSem :=
  { WordSem.plain 0 0 (fun _ s =>
      let l := curLevel s t
      let g := (s.thr t).arch.glink l
      let n := g.nres.toNat
      if g.valid = false then .trap (gateFault 6 0) s
      else if g.frames ≠ 0 then .trap (gateFault 7 0) s
      else
        let ck := s.stk t g.caller false
        if curDepth s t false < n ∨ (n ≠ 0 ∧ ck.fits (ck.depth + n) = false) then .trap (gateFault 8 0) s
        else match ensureCur t false n s with
          | none => .hold s
          | some s1 =>
            let cells := curTop s1 t false n
            let s2 := s1.modArch t fun a => gretArch a l g.caller
            .jump g.rpc (replaceTop t g.caller false 0 cells s2)) with
    allowed := fun l => decide (l ≠ .T) }
def execGret (t : ThreadId) (g : Guard) (s : State) : Host.Outcome State Fault Refusal := .next (runWord t g (semGret t) s)

/-- RETI (R246, R247, R280 to R283). -/
def semReti (t : ThreadId) : WordSem := WordSem.plain 0 0 fun _ s => returnFrom t s
def execReti (t : ThreadId) (g : Guard) (s : State) : Host.Outcome State Fault Refusal := .next (runWord t g (semReti t) s)

/-- The running level's cap in LEASH.LIMIT (R253). -/
def leashCap (k : Core) : Level → BitVec 12
  | .T => k.leashT
  | .S => k.leashS
  | .M => k.leashM

/-- Does an overrun of a leash of a level trap on a core (R253)? -/
def leashTraps (k : Core) (l : Level) : Bool := k.leashTrap.getLsbD (levelNum l)

/-- The leash after LEASH with an operand, under the level's cap and its bit of LEASH.TRAP (R250, R253). -/
def leashStart (r : LeashReg) (l : Level) (cap : BitVec 12) (trap : Bool) (n : Cell) : LeashReg :=
  let clamps := decide (cap.toNat < n.toNat)
  let want : BitVec 12 := if clamps then cap else n.setWidth 12
  let count := if r.on ∧ r.count < want then r.count else want
  { r with lvl := l, trap := trap, clamp := r.clamp || clamps, on := decide (count ≠ 0), count := count }

/-- LEASH ( n -- ) (R250). -/
def semLeash (t : ThreadId) : WordSem := WordSem.plain 1 0 fun cs s =>
  let l := curLevel s t
  let k := s.cor t.core
  .next ((popPush t 1 [] s).modThr t fun th =>
    { th with leash := leashStart th.leash l (leashCap k l) (leashTraps k l) (cs.getD 0 (PCell.of 0)).val })
def execLeash (t : ThreadId) (g : Guard) (s : State) : Host.Outcome State Fault Refusal := .next (runWord t g (semLeash t) s)

/-- UNLEASH (R255). -/
def semUnleash (t : ThreadId) : WordSem := WordSem.plain 0 0 fun _ s => .next (s.modThr t endLeash)
def execUnleash (t : ThreadId) (g : Guard) (s : State) : Host.Outcome State Fault Refusal := .next (runWord t g (semUnleash t) s)

/-- A word whose OP value no instruction occupies raises illegal opcode RESERVED (R73, R74). -/
def semReserved : WordSem := { WordSem.plain 0 0 (fun _ s => .next s) with illegal := some 0 }
def execReservedEncoding (t : ThreadId) (g : Guard) (_op : BitVec 12) (s : State) : Host.Outcome State Fault Refusal :=
  .next (runWord t g semReserved s)

end Sys2Proof.Machine
end

