-- ==== Sys2Proof/Machine/Crypto.lean ====
section
/-! DEFINITION. The algorithms the helpers, the Whistle frames and the profiles name: CRC-8, CRC-32 and CRC-32C, SHA-256,
HMAC-SHA-256, AES and AES-GCM (R403, R405 to R409, R442, R451, R492), with the tables their standards give. -/

namespace Sys2Proof.Machine

/-! ### CRCs -/

/-- One bit of the CRC-8 x⁸ + x² + x + 1, most significant bit first (R451). -/
def crc8Bit (c : Byte) : Byte := if c.getLsbD 7 then (c <<< 1) ^^^ 0x07 else c <<< 1
def crc8Byte (c b : Byte) : Byte := (List.range 8).foldl (fun acc _ => crc8Bit acc) (c ^^^ b)
/-- The CRC-8 of bytes, initial value 0 (R451). -/
def crc8 (bs : List Byte) : Byte := bs.foldl crc8Byte 0

/-- The reflected polynomial of IEEE 802.3 (R403). -/
def polyIeee : BitVec 32 := 0xEDB88320
/-- The reflected Castagnoli polynomial (R403). -/
def polyC : BitVec 32 := 0x82F63B78

/-- One bit of a reflected CRC. -/
def crcBit (p c : BitVec 32) : BitVec 32 := if c.getLsbD 0 then (c >>> 1) ^^^ p else c >>> 1
def crcByte (p c : BitVec 32) (b : Byte) : BitVec 32 := (List.range 8).foldl (fun acc _ => crcBit p acc) (c ^^^ b.setWidth 32)
/-- A reflected CRC register fed with bytes, with no inversion (R403). -/
def crcFeed (p c : BitVec 32) (bs : List Byte) : BitVec 32 := bs.foldl (crcByte p) c
/-- The CRC-32C with initial value 0xFFFF_FFFF and final inversion (R411, R442, R487). -/
def crc32cOf (bs : List Byte) : BitVec 32 := ~~~(crcFeed polyC 0xFFFFFFFF bs)

/-! ### SHA-256 and HMAC -/

/-- The round constants of FIPS 180-4. -/
def shaK : List (BitVec 32) :=
  [0x428a2f98, 0x71374491, 0xb5c0fbcf, 0xe9b5dba5, 0x3956c25b, 0x59f111f1, 0x923f82a4, 0xab1c5ed5] ++
  [0xd807aa98, 0x12835b01, 0x243185be, 0x550c7dc3, 0x72be5d74, 0x80deb1fe, 0x9bdc06a7, 0xc19bf174] ++
  [0xe49b69c1, 0xefbe4786, 0x0fc19dc6, 0x240ca1cc, 0x2de92c6f, 0x4a7484aa, 0x5cb0a9dc, 0x76f988da] ++
  [0x983e5152, 0xa831c66d, 0xb00327c8, 0xbf597fc7, 0xc6e00bf3, 0xd5a79147, 0x06ca6351, 0x14292967] ++
  [0x27b70a85, 0x2e1b2138, 0x4d2c6dfc, 0x53380d13, 0x650a7354, 0x766a0abb, 0x81c2c92e, 0x92722c85] ++
  [0xa2bfe8a1, 0xa81a664b, 0xc24b8b70, 0xc76c51a3, 0xd192e819, 0xd6990624, 0xf40e3585, 0x106aa070] ++
  [0x19a4c116, 0x1e376c08, 0x2748774c, 0x34b0bcb5, 0x391c0cb3, 0x4ed8aa4a, 0x5b9cca4f, 0x682e6ff3] ++
  [0x748f82ee, 0x78a5636f, 0x84c87814, 0x8cc70208, 0x90befffa, 0xa4506ceb, 0xbef9a3f7, 0xc67178f2]

/-- The initial hash value of FIPS 180-4. -/
def shaInit : List (BitVec 32) :=
  [0x6a09e667, 0xbb67ae85, 0x3c6ef372, 0xa54ff53a, 0x510e527f, 0x9b05688c, 0x1f83d9ab, 0x5be0cd19]

def shaS0 (x : BitVec 32) : BitVec 32 := x.rotateRight 7 ^^^ x.rotateRight 18 ^^^ (x >>> 3)
def shaS1 (x : BitVec 32) : BitVec 32 := x.rotateRight 17 ^^^ x.rotateRight 19 ^^^ (x >>> 10)
def shaB0 (x : BitVec 32) : BitVec 32 := x.rotateRight 2 ^^^ x.rotateRight 13 ^^^ x.rotateRight 22
def shaB1 (x : BitVec 32) : BitVec 32 := x.rotateRight 6 ^^^ x.rotateRight 11 ^^^ x.rotateRight 25

/-- n words of 32 bits from bytes. -/
def words32 (n : Nat) (bs : List Byte) : List (BitVec 32) :=
  (List.range n).map fun i => BitVec.ofNat 32 (bytesNat ((bs.drop (4 * i)).take 4))

/-- The message schedule, oldest word first, n words beyond the 16 of the block. -/
def shaSchedule : Nat → List (BitVec 32) → List (BitVec 32)
  | 0, w => w
  | n + 1, w =>
    let k := w.length
    shaSchedule n (w ++ [shaS1 (w.getD (k - 2) 0) + w.getD (k - 7) 0 + shaS0 (w.getD (k - 15) 0) + w.getD (k - 16) 0])

/-- One round over a to h. -/
def shaRound (v : List (BitVec 32)) (kw : BitVec 32 × BitVec 32) : List (BitVec 32) :=
  match v with
  | [a, b, c, d, e, f, g, h] =>
    let t1 := h + shaB1 e + ((e &&& f) ^^^ (~~~e &&& g)) + kw.1 + kw.2
    let t2 := shaB0 a + ((a &&& b) ^^^ (a &&& c) ^^^ (b &&& c))
    [t1 + t2, a, b, c, d + t1, e, f, g]
  | x => x

/-- The hash value after a block of 64 bytes. -/
def shaBlock (h : List (BitVec 32)) (block : List Byte) : List (BitVec 32) :=
  let v := (shaK.zip (shaSchedule 48 (words32 16 block))).foldl shaRound h
  (h.zip v).map fun p => p.1 + p.2

/-- The padding of FIPS 180-4 for a message of n bytes. -/
def shaPad (n : Nat) : List Byte := 0x80 :: List.replicate ((119 - n % 64) % 64) 0 ++ natBytes 8 (8 * n)

/-- Feed n blocks. -/
def shaBlocks : Nat → List (BitVec 32) → List Byte → List (BitVec 32)
  | 0, h, _ => h
  | n + 1, h, bs => shaBlocks n (shaBlock h (bs.take 64)) (bs.drop 64)

/-- The SHA-256 digest of bytes, 32 bytes (R409). -/
def sha256Of (bs : List Byte) : List Byte :=
  let m := bs ++ shaPad bs.length
  (shaBlocks (m.length / 64) shaInit m).flatMap fun w => natBytes 4 w.toNat

/-- HMAC-SHA-256 under a key of at most 64 bytes (R492). -/
def hmacSha256 (key msg : List Byte) : List Byte :=
  let k := key ++ List.replicate (64 - key.length) 0
  sha256Of (k.map (· ^^^ 0x5C) ++ sha256Of (k.map (· ^^^ 0x36) ++ msg))

/-! ### AES -/

/-- Row k of the S-box of FIPS 197: entry 16 k + j is byte j, lowest first. -/
def sboxRow (k : Nat) : Nat :=
  match k with
  | 0 => 0x76abd7fe2b670130c56f6bf27b777c63
  | 1 => 0xc072a49cafa2d4adf04759fa7dc982ca
  | 2 => 0x1531d871f1e5a534ccf73f362693fdb7
  | 3 => 0x75b227ebe28012079a059618c323c704
  | 4 => 0x842fe329b3d63b52a05a6e1b1a2c8309
  | 5 => 0xcf584c4a39becb6a5bb1fc20ed00d153
  | 6 => 0xa89f3c507f02f94585334d43fbaaefd0
  | 7 => 0xd2f3ff1021dab6bcf5389d928f40a351
  | 8 => 0x73195d643d7ea7c41744975fec130ccd
  | 9 => 0xdb0b5ede14b8ee4688902a22dc4f8160
  | 10 => 0x79e4959162acd3c25c2406490a3a32e0
  | 11 => 0x08ae7a65eaf4566ca94ed58d6d37c8e7
  | 12 => 0x8a8bbd4b1f74dde8c6b4a61c2e2578ba
  | 13 => 0x9e1dc186b95735610ef6034866b53e70
  | 14 => 0xdf2855cee9871e9b948ed9691198f8e1
  | _ => 0x16bb54b00f2d99416842e6bf0d89a18c

/-- The S-box of FIPS 197. -/
def sbox (b : Byte) : Byte := BitVec.ofNat 8 (sboxRow (b.toNat / 16) >>> (8 * (b.toNat % 16)))

/-- Multiplication by x in the field of AES. -/
def xtime (b : Byte) : Byte := if b.getLsbD 7 then (b <<< 1) ^^^ 0x1B else b <<< 1

/-- The substitution of the four bytes of a word. -/
def subWord (w : List Byte) : List Byte := w.map sbox

/-- Exclusive OR of bytes. -/
def xorBytes (a b : List Byte) : List Byte := (a.zip b).map fun p => p.1 ^^^ p.2

/-- Key expansion: n more words of four bytes for a key of nk words; rc is the next round constant. -/
def keyWords (nk : Nat) : Nat → Byte → List (List Byte) → List (List Byte)
  | 0, _, w => w
  | n + 1, rc, w =>
    let i := w.length
    let prev := w.getD (i - 1) []
    let temp :=
      if i % nk = 0 then (match subWord (prev.drop 1 ++ prev.take 1) with
        | b :: bs => (b ^^^ rc) :: bs
        | [] => [])
      else if 6 < nk ∧ i % nk = 4 then subWord prev
      else prev
    keyWords nk n (if i % nk = 0 then xtime rc else rc) (w ++ [xorBytes (w.getD (i - nk) []) temp])

/-- n groups of k bytes. -/
def chunks (k n : Nat) (bs : List Byte) : List (List Byte) := (List.range n).map fun i => (bs.drop (k * i)).take k

/-- The round keys of a key of 16 or 32 bytes, 16 bytes each. -/
def roundKeys (key : List Byte) : List (List Byte) :=
  let nk := key.length / 4
  let total := 4 * (nk + 7)
  chunks 16 (nk + 7) (keyWords nk (total - nk) 1 (chunks 4 nk key)).flatten

/-- ShiftRows on the 16 bytes of a block, column by column. -/
def shiftRows (b : List Byte) : List Byte := (List.range 16).map fun i => b.getD ((5 * i) % 16) 0

/-- MixColumns on one column. -/
def mixColumn (c : List Byte) : List Byte :=
  match c with
  | [a, b, d, e] =>
    [xtime a ^^^ (xtime b ^^^ b) ^^^ d ^^^ e, a ^^^ xtime b ^^^ (xtime d ^^^ d) ^^^ e,
     a ^^^ b ^^^ xtime d ^^^ (xtime e ^^^ e), (xtime a ^^^ a) ^^^ b ^^^ d ^^^ xtime e]
  | x => x

/-- The rounds after the first key addition; the last one mixes no columns. -/
def aesRounds : List (List Byte) → List Byte → List Byte
  | [], b => b
  | [k], b => xorBytes (shiftRows (b.map sbox)) k
  | k :: ks, b => aesRounds ks (xorBytes ((chunks 4 4 (shiftRows (b.map sbox))).flatMap mixColumn) k)

/-- AES of one block under a key of 16 or 32 bytes (R407). -/
def aesBlock (key block : List Byte) : List Byte :=
  match roundKeys key with
  | k :: ks => aesRounds ks (xorBytes block k)
  | [] => block

/-! ### GCM -/

/-- The 128-bit number that 16 bytes spell. -/
def blockNum (b : List Byte) : BitVec 128 := BitVec.ofNat 128 (bytesNat b)

/-- Multiplication in the field of GCM (SP 800-38D). -/
def gcmMul (x y : BitVec 128) : BitVec 128 :=
  ((List.range 128).foldl (fun (zv : BitVec 128 × BitVec 128) i =>
    (if x.getLsbD (127 - i) then zv.1 ^^^ zv.2 else zv.1,
     if zv.2.getLsbD 0 then (zv.2 >>> 1) ^^^ (0xE1#128 <<< 120) else zv.2 >>> 1)) (0, y)).1

/-- Bytes filled up with zeros to whole blocks. -/
def padBlocks (bs : List Byte) : List Byte := bs ++ List.replicate ((16 - bs.length % 16) % 16) 0

/-- GHASH of whole blocks under a subkey. -/
def ghash (h : BitVec 128) (bs : List Byte) : BitVec 128 :=
  (chunks 16 (bs.length / 16) bs).foldl (fun y b => gcmMul (y ^^^ blockNum b) h) 0

/-- The keystream for n bytes after the counter block IV ‖ 1. -/
def gcmStream (key iv : List Byte) (n : Nat) : List Byte :=
  ((List.range ((n + 15) / 16)).flatMap fun i => aesBlock key (iv ++ natBytes 4 (i + 2))).take n

/-- The tag over the AAD and the ciphertext. -/
def gcmTag (key : List Byte) (h : BitVec 128) (iv aad ct : List Byte) : List Byte :=
  let s := ghash h (padBlocks aad ++ padBlocks ct ++ natBytes 8 (8 * aad.length) ++ natBytes 8 (8 * ct.length))
  xorBytes (natBytes 16 s.toNat) (aesBlock key (iv ++ natBytes 4 1))

/-- The hash subkey AES_K(0¹²⁸) (R406). -/
def gcmSubkey (key : List Byte) : BitVec 128 := blockNum (aesBlock key (List.replicate 16 0))

end Sys2Proof.Machine
end

