-- ==== Sys2Proof/Machine/Helper.lean ====
section
/-! DEFINITION. The helper words: launch, checks, completion, and the customer helper port (chapter 13). -/

namespace Sys2Proof.Machine

/-! ### Kinds -/

/-- The helper class of an operation (R72). -/
def HelperKind.cls : HelperKind → Nat
  | .crc32 => 0
  | .crc32c => 0
  | .csum16 => 0
  | .csumupd => 0
  | .keyld => 1
  | .gcmenc => 1
  | .gcmdec => 1
  | .sha256 => 1
  | .shachain => 1
  | .lkp => 2
  | .lkpx => 2
  | .lkpt => 2
  | .hash => 2
  | .seqrec => 3
  | .seqrst => 3

/-- The operand cells of an operation (chapter 13). -/
def HelperKind.pops : HelperKind → Nat
  | .crc32 => 3
  | .crc32c => 3
  | .csum16 => 3
  | .csumupd => 3
  | .keyld => 2
  | .gcmenc => 1
  | .gcmdec => 1
  | .sha256 => 3
  | .shachain => 4
  | .lkp => 2
  | .lkpx => 2
  | .lkpt => 2
  | .hash => 2
  | .seqrec => 2
  | .seqrst => 1

/-- The result cells of an operation. -/
def HelperKind.pushes : HelperKind → Nat
  | .seqrst => 0
  | _ => 1

/-- Does an operation read memory, so that it waits at launch for the thread's stores (R397)? -/
def HelperKind.readsMem : HelperKind → Bool
  | .csumupd => false
  | .lkpt => false
  | .hash => false
  | .seqrec => false
  | .seqrst => false
  | _ => true

/-! ### Ranges (R397, R400) -/

/-- A range of a helper: what it is to be used for, its address cell and its length. -/
structure HRange where
  kind : AccKind
  addr : Cell
  len : Nat
  deriving DecidableEq, Repr

/-- A length operand: bits [13:0] (R400). -/
def hLen (c : Cell) : Nat := (c.extractLsb' 0 14).toNat

/-- Operand i of an operation, counted from the top. -/
def opAt (ops : List Cell) (i : Nat) : Cell := ops.getD i 0

/-- The key size that ks names (R406). -/
def keySize (ks : Cell) : Nat := if ks.getLsbD 6 then 32 else 16

/-- The ranges that an operation's operands name, in stack order. -/
def stackRanges (k : HelperKind) (ops : List Cell) : List HRange :=
  match k with
  | .crc32 => [{ kind := .helperRead, addr := opAt ops 1, len := hLen (opAt ops 0) }]
  | .crc32c => [{ kind := .helperRead, addr := opAt ops 1, len := hLen (opAt ops 0) }]
  | .csum16 => [{ kind := .helperRead, addr := opAt ops 1, len := hLen (opAt ops 0) }]
  | .keyld => [{ kind := .helperRead, addr := opAt ops 1, len := keySize (opAt ops 0) }]
  | .gcmenc => [{ kind := .helperRead, addr := opAt ops 0, len := 42 }]
  | .gcmdec => [{ kind := .helperRead, addr := opAt ops 0, len := 42 }]
  | .sha256 => [{ kind := .helperRead, addr := opAt ops 2, len := hLen (opAt ops 1) },
      { kind := .helperWrite, addr := opAt ops 0, len := 32 }]
  | .shachain => [{ kind := .helperRead, addr := opAt ops 3, len := 32 },
      { kind := .helperRead, addr := opAt ops 2, len := hLen (opAt ops 1) },
      { kind := .helperWrite, addr := opAt ops 0, len := 32 }]
  | _ => []

/-- The checks of R120 steps 1 to 7 on one range; a range of length 0 takes none (R397, R400). -/
def rangeExc (s : State) (t : ThreadId) (r : HRange) : Option Exc :=
  if r.len = 0 then none
  else match checkAccess s t (accLevel s t) r.kind r.addr r.len 0 with
    | .error x => some x
    | .ok _ => none

/-- The region of a range that has passed its checks. -/
def rangeRegion (s : State) (t : ThreadId) (r : HRange) : Region :=
  match checkAccess s t (accLevel s t) r.kind r.addr r.len 0 with
  | .error _ => .own
  | .ok x => x

/-- What an entry demands of its range beyond R397: KEYLD's key lies in the kennel (R406), GCM's parameter block is
cell-aligned in the own scratchpad or in shared SRAM (R407). -/
def entryExc (s : State) (t : ThreadId) (k : HelperKind) (r : HRange) : Option Exc :=
  let rg := rangeRegion s t r
  let spad := (spadOf t.core rg).isSome
  match k with
  | .keyld => if rg = .kennel then none else some { cause := 3, sub := 2, addr := r.addr.setWidth 36 }
  | .gcmenc =>
    if (spad ∨ rg = .shared ∨ rg = .stash) ∧ r.addr.toNat % 6 = 0 then none
    else some { cause := 2, sub := 0, addr := r.addr.setWidth 36 }
  | .gcmdec =>
    if (spad ∨ rg = .shared ∨ rg = .stash) ∧ r.addr.toNat % 6 = 0 then none
    else some { cause := 2, sub := 0, addr := r.addr.setWidth 36 }
  | _ => none

/-- The first exception that the ranges named on the stack raise, in the order in which they stand there, and then what the entry demands of
its first range; the ranges of a GCM parameter block go in the block's order (R397, R400; DESIGN CHOICE, notes/assumptions/126.md). -/
def launchExc (s : State) (t : ThreadId) (k : HelperKind) (ops : List Cell) : Option Exc :=
  let rs := stackRanges k ops
  match rs.findSome? (rangeExc s t) with
  | some x => some x
  | none => (rs.take 1).findSome? (entryExc s t k)

/-- The comparators that match ranges (R467). -/
def rangeHits (s : State) (t : ThreadId) (rs : List HRange) : BitVec 8 :=
  rs.foldl (fun acc r => acc ||| (if r.len = 0 then 0 else dataHits s t r.kind.writes r.addr.toNat r.len)) 0

/-! ### Launch -/

/-- The operation joins its class's queue: the word is in flight with its operands (R395); SEQREC also keeps the time at
which it reached the helper (R413). -/
def launch (t : ThreadId) (k : HelperKind) (ops : List Cell) (s : State) : State :=
  let now := dblOf s.now
  let ops' := if k = .seqrec then ops ++ [now.hi, now.lo] else ops
  let s1 := joinClass t k.cls (s.modThr t fun th => { th with pend := .helper k ops' })
  if k = .seqrec then seqServe ((opAt ops 0).extractLsb' 0 12) s1 else s1

/-- A helper word's own checks, its wait for the thread's stores, and its launch (R397). -/
def helperBody (t : ThreadId) (k : HelperKind) (cs : List PCell) (s : State) : WRes :=
  let ops := cs.map (·.val)
  match launchExc s t k ops with
  | some x => .trap x s
  | none =>
    let hits := rangeHits s t (stackRanges k ops)
    if k.readsMem && !(storesOf s t).isEmpty then .hold s
    else if hits ≠ 0 then .brk hits s
    else .hold (launch t k ops s)

/-- A helper word (R394). -/
def helperSem (t : ThreadId) (k : HelperKind) : WordSem :=
  { WordSem.plain k.pops k.pushes (helperBody t k) with helper := some k.cls }

/-! ### Completion -/

/-- Status cells (R405). -/
def stOk : Cell := 0
def stAuthFail : Cell := 1
def stNoKey : Cell := 2
def stBadParam : Cell := 3

/-- A range is read, once its checks have passed; length 0 reads nothing. -/
def rangeRead (s : State) (t : ThreadId) (r : HRange) : ReadRes × State :=
  if r.len = 0 then (.ok [], s)
  else
    let rg := rangeRegion s t r
    readTarget s t rg .normal r.addr.toNat r.len

/-- A range is written. -/
def rangeWrite (t : ThreadId) (r : HRange) (bs : List Byte) (s : State) : State :=
  if r.len = 0 then s
  else
    let rg := rangeRegion s t r
    writeTarget t rg .normal r.addr.toNat bs s

/-- The ranges' bytes in order, or the exception of the first that fails (R397). -/
def readRanges (t : ThreadId) : List HRange → State → Except Exc (List (List Byte)) × State
  | [], s => (.ok [], s)
  | r :: rs, s =>
    let v := rangeRead s t r
    match readExc (r.addr.setWidth 36) v.1 with
    | some x => (.error x, v.2)
    | none =>
      let w := readRanges t rs v.2
      (w.1.map (readBytes v.1 :: ·), w.2)

/-- The word retires with its results in place of its operands. -/
def helperDone (t : ThreadId) (k : HelperKind) (vs : List Cell) (s : State) : WRes := .next (popPush t k.pops vs s)

/-- An operation over the bytes of the ranges it reads. -/
def overBytes (t : ThreadId) (rs : List HRange) (f : List (List Byte) → State → WRes) (s : State) : WRes :=
  let v := readRanges t rs s
  match v.1 with
  | .error x => .trap x v.2
  | .ok bss => f bss v.2

/-- The ranges that an operation reads. -/
def readOnes (rs : List HRange) : List HRange := rs.filter fun r => !r.kind.writes

/-- CRC32 and CRC32C (R403). -/
def runCrc (t : ThreadId) (k : HelperKind) (p : BitVec 32) (ops : List Cell) (s : State) : WRes :=
  overBytes t (stackRanges k ops) (fun bss s1 =>
    helperDone t k [(crcFeed p ((opAt ops 2).extractLsb' 0 32) bss.flatten).setWidth 48] s1) s

/-- CSUM16 (R404). -/
def runCsum16 (t : ThreadId) (ops : List Cell) (s : State) : WRes :=
  overBytes t (stackRanges .csum16 ops) (fun bss s1 =>
    helperDone t .csum16 [BitVec.ofNat 48 (ocSum ((opAt ops 2).toNat % 65536) bss.flatten)] s1) s

/-- CSUMUPD (R404). -/
def csumUpd (c old new : Nat) : Nat := 65535 - ocAdd (ocAdd (65535 - c % 65536) (65535 - old % 65536)) (new % 65536)

/-- KEYLD (R406): set bits of ks beyond [6:0] give BADPARAM. -/
def runKeyld (t : ThreadId) (ops : List Cell) (s : State) : WRes :=
  if 2 ^ 7 ≤ (opAt ops 0).toNat then helperDone t .keyld [stBadParam] s
  else overBytes t (stackRanges .keyld ops) (fun bss s1 =>
    let key := bss.flatten
    let slot := ((opAt ops 0).extractLsb' 0 6).toNat
    helperDone t .keyld [stOk] { s1 with help := { s1.help with
      keys := smPut KeySlot.empty s1.help.keys slot { key := key, subkey := gcmSubkey key } } }) s

/-- SHA256 and SHACHAIN (R409): the digest goes to dout. -/
def runSha (t : ThreadId) (k : HelperKind) (ops : List Cell) (s : State) : WRes :=
  overBytes t (readOnes (stackRanges k ops)) (fun bss s1 =>
    helperDone t k [stOk]
      (rangeWrite t { kind := .helperWrite, addr := opAt ops 0, len := 32 } (sha256Of bss.flatten) s1)) s

/-- A parameter block (R407). -/
structure GcmParams where
  aadLen : Nat
  textLen : Nat
  slot : Nat
  iv : List Byte
  aad : Cell
  src : Cell
  dst : Cell
  tag : Cell
  bad : Bool
  deriving DecidableEq, Repr

/-- The fields of a parameter block's 42 bytes (R407). -/
def gcmParams (bs : List Byte) : GcmParams :=
  let cell := fun i => bytesCell ((bs.drop (6 * i)).take 6)
  let c0 := cell 0
  { aadLen := (c0.extractLsb' 34 14).toNat
    textLen := (c0.extractLsb' 20 14).toNat
    slot := (c0.extractLsb' 0 6).toNat
    iv := (bs.drop 6).take 12
    aad := cell 3
    src := cell 4
    dst := cell 5
    tag := cell 6
    bad := decide (c0.extractLsb' 6 14 ≠ 0) || [cell 3, cell 4, cell 5, cell 6].any upperBits }

/-- The ranges a parameter block names (R407). -/
def gcmRanges (enc : Bool) (p : GcmParams) : List HRange :=
  [{ kind := .helperRead, addr := p.aad, len := p.aadLen }, { kind := .helperRead, addr := p.src, len := p.textLen },
   { kind := .helperWrite, addr := p.dst, len := p.textLen },
   { kind := if enc then .helperWrite else .helperRead, addr := p.tag, len := 16 }]

/-- The text is transformed and the tag written or compared (R407). -/
def gcmFinish (t : ThreadId) (k : HelperKind) (p : GcmParams) (key : KeySlot) (bss : List (List Byte)) (s : State) : WRes :=
  let aad := bss.getD 0 []
  let text := bss.getD 1 []
  let out := xorBytes text (gcmStream key.key p.iv text.length)
  let s1 := rangeWrite t { kind := .helperWrite, addr := p.dst, len := p.textLen } out s
  if k = .gcmenc then
    helperDone t k [stOk] (rangeWrite t { kind := .helperWrite, addr := p.tag, len := 16 }
      (gcmTag key.key key.subkey p.iv aad out) s1)
  else helperDone t k [if gcmTag key.key key.subkey p.iv aad text = bss.getD 2 [] then stOk else stAuthFail] s1

/-- GCMENC and GCMDEC (R407): BADPARAM, the checks of the ranges, then NOKEY. -/
def runGcm (t : ThreadId) (k : HelperKind) (ops : List Cell) (s : State) : WRes :=
  overBytes t (stackRanges k ops) (fun pb s1 =>
    let p := gcmParams pb.flatten
    let rs := gcmRanges (decide (k = .gcmenc)) p
    let key := smGet KeySlot.empty s1.help.keys p.slot
    if p.bad then helperDone t k [stBadParam] s1
    else match rs.findSome? (rangeExc s1 t) with
      | some x => .trap x s1
      | none =>
        let hits := rangeHits s1 t rs
        if hits ≠ 0 then .brk hits s1
        else if key.key.isEmpty then helperDone t k [stNoKey] s1
        else overBytes t (readOnes rs) (gcmFinish t k p key) s1) s

/-! ### Lookup -/

/-- The twelve bytes of a lookup key, high cell first (R411). -/
def keyBytes (hi lo : Cell) : List Byte := cellBytes hi ++ cellBytes lo

/-- The hash of a key (R411). -/
def keyHash (hi lo : Cell) : BitVec 32 := crc32cOf (keyBytes hi lo)

/-- A lookup result (R410). -/
def lookupCell (tern : Bool) (idx : Nat) (data : BitVec 32) : Cell :=
  1#1 ++ BitVec.ofBool tern ++ 0#4 ++ BitVec.ofNat 10 idx ++ data

/-- Is the exact table searched: EN, a cell-aligned base, and a table wholly in the general part of shared SRAM (R411)? -/
def exactOn (h : Helpers) : Bool :=
  let b := h.lkpBase.toNat
  h.lkpEn && decide (b % 6 = 0 ∧ 0x10000000 ≤ b ∧ b + 1179648 ≤ 0x10500000)

/-- The ternary search (R412); entries stand with rising indexes. -/
def ternSearch (h : Helpers) (hi lo : Cell) : Option Cell :=
  (h.tern.find? fun e => e.2.valid &&
      decide (hi &&& e.2.mskhi = e.2.keyhi &&& e.2.mskhi ∧ lo &&& e.2.msklo = e.2.keylo &&& e.2.msklo)).map
    fun e => lookupCell true e.1 e.2.data

/-- Does way w of a bucket match a key: its entry's cells (R411)? -/
def wayMatch (bucket : List Byte) (hi lo : Cell) (w : Nat) : Option Cell :=
  let cell := fun i => bytesCell ((bucket.drop (18 * w + 6 * i)).take 6)
  if (cell 2).getLsbD 47 ∧ cell 0 = hi ∧ cell 1 = lo then some (lookupCell false w ((cell 2).extractLsb' 0 32)) else none

/-- The exact search: a result or a miss, or the exception of a byte error in the bucket (R411).
DEDUCED (notes/assumptions/32.md). -/
def exactSearch (s : State) (hi lo : Cell) : Except Exc (Option Cell) × State :=
  if exactOn s.help = false then (.ok none, s)
  else
    let a := s.help.lkpBase.toNat + 72 * ((keyHash hi lo).extractLsb' 0 14).toNat
    let v := busRead s .normal (span a 72)
    match readExc (BitVec.ofNat 36 a) v.1 with
    | some x => (.error x, v.2)
    | none => (.ok ((List.range 4).findSome? (wayMatch (readBytes v.1) hi lo)), v.2)

/-- LKP, LKPX and LKPT (R410): the operands are the key's high cell, on top, and its low cell. -/
def runLookup (t : ThreadId) (k : HelperKind) (ops : List Cell) (s : State) : WRes :=
  let hi := opAt ops 0
  let lo := opAt ops 1
  let e := if k = .lkpt then (.ok none, s) else exactSearch s hi lo
  match e.1 with
  | .error x => .trap x e.2
  | .ok (some c) => helperDone t k [c] e.2
  | .ok none => helperDone t k [if k = .lkpx then 0 else (ternSearch s.help hi lo).getD 0] e.2

/-! ### The end of an operation -/

/-- SEQREC retires: its pending state is committed and its verdict pushed; a request that still waits for another's update
stays in flight (R415). -/
def runSeqrec (t : ThreadId) (s : State) : WRes :=
  match s.help.seqPend.find? (fun p => decide (p.thread = t)) with
  | some p => helperDone t .seqrec [p.verdict] (seqEnd t true s)
  | none => .hold s

/-- SEQRST retires: TAKEANY sets, once no update of the stream is pending and no request stands ahead of it (R395, R415). -/
def runSeqrst (t : ThreadId) (ops : List Cell) (s : State) : WRes :=
  let st : BitVec 12 := (opAt ops 0).extractLsb' 0 12
  if s.help.seqBusy st || (seqNext s st).any (fun u => decide (u ≠ t)) then .hold s
  else helperDone t .seqrst [] { s with help := s.help.setStream st { s.help.stream st with takeany := true } }

/-- What an operation comes to when it completes. A crypto operation that a kennel wipe met has lost its operands: it
completes with NOKEY and writes nothing (R402). -/
def helperRun (t : ThreadId) (k : HelperKind) (ops : List Cell) (s : State) : WRes :=
  if k.cls = 1 ∧ ops = [] then helperDone t k [stNoKey] s
  else match k with
    | .crc32 => runCrc t .crc32 polyIeee ops s
    | .crc32c => runCrc t .crc32c polyC ops s
    | .csum16 => runCsum16 t ops s
    | .csumupd =>
      helperDone t .csumupd [BitVec.ofNat 48 (csumUpd (opAt ops 2).toNat (opAt ops 1).toNat (opAt ops 0).toNat)] s
    | .keyld => runKeyld t ops s
    | .gcmenc => runGcm t .gcmenc ops s
    | .gcmdec => runGcm t .gcmdec ops s
    | .sha256 => runSha t .sha256 ops s
    | .shachain => runSha t .shachain ops s
    | .lkp => runLookup t .lkp ops s
    | .lkpx => runLookup t .lkpx ops s
    | .lkpt => runLookup t .lkpt ops s
    | .hash => helperDone t .hash [(keyHash (opAt ops 0) (opAt ops 1)).setWidth 48] s
    | .seqrec => runSeqrec t s
    | .seqrst => runSeqrst t ops s

/-- A helper word whose operation has completed does not retire: its operands are back on the stack, what the operation wrote stays
(R399), and a stream keeps its committed state (R415). -/
def helperKept (t : ThreadId) (k : HelperKind) (s : State) : WRes → State
  | .next s1 => if k.cls = 3 then gaveUp t s else gaveUp t (curReplace t false k.pushes (curTop s t false k.pops) s1)
  | _ => gaveUp t s

/-- At retirement the word's class is looked at once more, before what its operation raises (R59 step 2, R61, R401). -/
def helperAbsent (t : ThreadId) (k : HelperKind) (s : State) (r : WRes) : WRes :=
  if helperPresent s k.cls then r
  else match r with
    | .next _ | .trap _ _ => .trap { cause := 1, sub := 2, addr := (s.thr t).arch.pc.setWidth 36 } (helperKept t k s r)
    | x => x

/-- The comparators that match a helper word by the time it reaches retirement (R467). -/
def helperHits (s : State) (t : ThreadId) (k : HelperKind) (ops : List Cell) : BitVec 8 :=
  pcHits s t ||| (if ops = [] then 0 else rangeHits s t (stackRanges k ops))

/-- The operation has its result, and the word reaches retirement with it (R61, R211, R215, R467). -/
def helperEnds (t : ThreadId) (k : HelperKind) (ops : List Cell) (s : State) : State :=
  let r := helperRun t k ops s
  endFlight t (retirePhase t (helperHits s t k ops) (s.thr t).robPar (helperKept t k s r) (helperAbsent t k s r))

/-- A helper word has completed: unless it is in flight still, its request leaves the helpers. -/
def helperLeft (t : ThreadId) (s after : State) : State :=
  match (after.thr t).pend with
  | .helper _ _ => after
  | _ => leaveHelp t (seqStream s t) after

/-- The operation of a thread's helper word completes, and the word retires or traps (R395, R211); a request that no instance has
taken yet completes nothing. A debug halt freezes the helper (R402). DESIGN CHOICE (notes/assumptions/29.md). -/
def helperComplete (t : ThreadId) (s : State) : State :=
  match mayWake s t, (s.thr t).pend with
  | true, .helper k ops =>
    if queuedFor s t k.cls then s
    else match ensureCur t false k.pops s with
      | some s1 => helperLeft t s (helperEnds t k ops s1)
      | none => s
  | _, _ => s
def execHelperCompletion (t : ThreadId) (s : State) : Host.Outcome State Fault Refusal := .next (helperComplete t s)

/-! ### The words -/

/-- CRC32 ( crc src m -- crc' ) (R403). -/
def semCrc32 (t : ThreadId) : WordSem := helperSem t .crc32
def execCrc32 (t : ThreadId) (g : Guard) (s : State) : Host.Outcome State Fault Refusal := .next (runWord t g (semCrc32 t) s)

/-- CRC32C ( crc src m -- crc' ) (R403). -/
def semCrc32c (t : ThreadId) : WordSem := helperSem t .crc32c
def execCrc32c (t : ThreadId) (g : Guard) (s : State) : Host.Outcome State Fault Refusal := .next (runWord t g (semCrc32c t) s)

/-- CSUM16 ( acc src m -- acc' ) (R404). -/
def semCsum16 (t : ThreadId) : WordSem := helperSem t .csum16
def execCsum16 (t : ThreadId) (g : Guard) (s : State) : Host.Outcome State Fault Refusal := .next (runWord t g (semCsum16 t) s)

/-- CSUMUPD ( c old new -- c' ) (R404). -/
def semCsumupd (t : ThreadId) : WordSem := helperSem t .csumupd
def execCsumupd (t : ThreadId) (g : Guard) (s : State) : Host.Outcome State Fault Refusal := .next (runWord t g (semCsumupd t) s)

/-- KEYLD ( addr ks -- st ) (R406). -/
def semKeyld (t : ThreadId) : WordSem := helperSem t .keyld
def execKeyld (t : ThreadId) (g : Guard) (s : State) : Host.Outcome State Fault Refusal := .next (runWord t g (semKeyld t) s)

/-- GCMENC ( pb -- st ) (R407). -/
def semGcmenc (t : ThreadId) : WordSem := helperSem t .gcmenc
def execGcmenc (t : ThreadId) (g : Guard) (s : State) : Host.Outcome State Fault Refusal := .next (runWord t g (semGcmenc t) s)

/-- GCMDEC ( pb -- st ) (R407). -/
def semGcmdec (t : ThreadId) : WordSem := helperSem t .gcmdec
def execGcmdec (t : ThreadId) (g : Guard) (s : State) : Host.Outcome State Fault Refusal := .next (runWord t g (semGcmdec t) s)

/-- SHA256 ( src m dout -- st ) (R409). -/
def semSha256 (t : ThreadId) : WordSem := helperSem t .sha256
def execSha256 (t : ThreadId) (g : Guard) (s : State) : Host.Outcome State Fault Refusal := .next (runWord t g (semSha256 t) s)

/-- SHACHAIN ( prev src m dout -- st ) (R409). -/
def semShachain (t : ThreadId) : WordSem := helperSem t .shachain
def execShachain (t : ThreadId) (g : Guard) (s : State) : Host.Outcome State Fault Refusal := .next (runWord t g (semShachain t) s)

/-- LKP ( k -- r ) (R410). -/
def semLkp (t : ThreadId) : WordSem := helperSem t .lkp
def execLkp (t : ThreadId) (g : Guard) (s : State) : Host.Outcome State Fault Refusal := .next (runWord t g (semLkp t) s)

/-- LKPX ( k -- r ) (R410). -/
def semLkpx (t : ThreadId) : WordSem := helperSem t .lkpx
def execLkpx (t : ThreadId) (g : Guard) (s : State) : Host.Outcome State Fault Refusal := .next (runWord t g (semLkpx t) s)

/-- LKPT ( k -- r ) (R410). -/
def semLkpt (t : ThreadId) : WordSem := helperSem t .lkpt
def execLkpt (t : ThreadId) (g : Guard) (s : State) : Host.Outcome State Fault Refusal := .next (runWord t g (semLkpt t) s)

/-- HASH ( k -- h ) (R411). -/
def semHashW (t : ThreadId) : WordSem := helperSem t .hash
def execHashW (t : ThreadId) (g : Guard) (s : State) : Host.Outcome State Fault Refusal := .next (runWord t g (semHashW t) s)

/-- SEQREC ( sn st -- v ) (R413). -/
def semSeqrec (t : ThreadId) : WordSem := helperSem t .seqrec
def execSeqrec (t : ThreadId) (g : Guard) (s : State) : Host.Outcome State Fault Refusal := .next (runWord t g (semSeqrec t) s)

/-- SEQRST ( st -- ) (R415). -/
def semSeqrst (t : ThreadId) : WordSem := helperSem t .seqrst
def execSeqrst (t : ThreadId) (g : Guard) (s : State) : Host.Outcome State Fault Refusal := .next (runWord t g (semSeqrst t) s)

/-! ### The customer helper port (R416 to R418) -/

/-- Cells popped and pushed by customer operation f (R416). -/
def custPops (f : BitVec 6) : Nat := (f.extractLsb' 4 2).toNat
def custPushes (f : BitVec 6) : Nat := if f.getLsbD 3 then 2 else 1

/-- A customer word's request joins the queue of the port, and stands there at once where the port is free: CH_ID[7] toggles on each
request of the thread (R417, R418; DESIGN CHOICE, notes/assumptions/6.md). -/
def custBody (t : ThreadId) (f : BitVec 6) (cs : List PCell) (s : State) : WRes :=
  let tog := !(s.thr t).chToggle
  let x := fun i => (cs.getD i (PCell.of 0)).val
  let q : CustReq := { f := f, id := BitVec.ofBool tog ++ BitVec.ofNat 7 t.val, a := x 0, b := x 1, c := x 2 }
  .hold (custOffer (joinClass t 4 (s.modThr t fun th => { th with chToggle := tog, pend := .cust q .waiting })))

/-- CUSTOMER_HELPER_OP ( xₚ … x₁ -- y₀ [y₁] ) (R416). -/
def semCustomerHelperOp (t : ThreadId) (f : BitVec 6) : WordSem :=
  { WordSem.plain (custPops f) (custPushes f) (custBody t f) with helper := some 4 }
def execCustomerHelperOp (t : ThreadId) (g : Guard) (f : BitVec 6) (s : State) : Host.Outcome State Fault Refusal :=
  .next (runWord t g (semCustomerHelperOp t f) s)

/-- A customer word completes with its results and retires: CH_DONE with CH_KEEP at 1 (R417). -/
def custDone (t : ThreadId) (q : CustReq) (y0 y1 : Cell) (s : State) : State :=
  match ensureCur t false (custPops q.f) s with
  | some s1 =>
    let done := popPush t (custPops q.f) (if q.f.getLsbD 3 then [y1, y0] else [y0]) s1
    match retirePhase t (pcHits s t) (s.thr t).robPar (gaveUp t s) (.next done) with
    | .next s2 =>
      let s3 := leaveHelp t none (retireNext t s2)
      { s3 with ports := { s3.ports with chDone := s3.ports.chDone ++ [(q.id, true)] } }
    | r => endFlight t r
  | none => s

/-- The request that a CH_RID names, and how far it has come: one that the port has offered (R418). -/
def custOutstanding (s : State) (rid : BitVec 8) : Option (CustReq × CustStage) :=
  match (s.thr (custThreadOf rid)).pend with
  | .cust q st => if q.id = rid ∧ st ≠ .waiting then some (q, st) else none
  | _ => none

/-- A response of the customer logic: one that names no outstanding request is ignored (R418); one that arrives during a debug
halt is held (R460). A request that is answered has been accepted. DEDUCED (notes/assumptions/34.md). -/
def chAnswer (rid : BitVec 8) (r0 r1 : Cell) (s0 : State) : State :=
  match custOutstanding s0 rid with
  | none => s0
  | some (q, st) =>
    let s := if st = .offered then custAccept s0 else s0
    let t := custThreadOf rid
    if mayWake s t then custDone t q r0 r1 s
    else { s with held := s.held ++ [.chResponse rid r0 r1] }
def execChResponse (rid : BitVec 8) (r0 r1 : Cell) (s : State) : Host.Outcome State Fault Refusal := .next (chAnswer rid r0 r1 s)

/-- No response within HELP.CTL.CHTO of the acceptance: the word completes with every result all ones, and CHTO sets (R418). A debug halt
freezes the count (R460), and a response that is held has won. -/
def execChTimeout (t : ThreadId) (s : State) : Host.Outcome State Fault Refusal :=
  .next <| match mayWake s t, (s.thr t).pend with
    | true, .cust q (.accepted 0) =>
      let ones : Cell := BitVec.allOnes 48
      custDone t q ones ones { s with help := { s.help with chtoFlag := true } }
    | _, _ => s

/-- A rising edge of CH_EVENT raises source 39 (R417). -/
def execChEvent (s : State) : Host.Outcome State Fault Refusal := .next (raiseSrc 39 s)

end Sys2Proof.Machine
end

