-- ==== Sys2Proof/Machine/Tic.lean ====
section
/-! DEFINITION. The interrupt controller's events, interrupt and machine-check entry, and the leash's end (R255, R266 to
R290). -/

namespace Sys2Proof.Machine

/-! ### Sources -/

/-- A rising edge of EXT_IRQ[k] (R269, R270). -/
def execExtIrqEdge (k : BitVec 8) (s : State) : Host.Outcome State Fault Refusal := .next (raiseSrc (64 + k.toNat) s)

/-- EXT_RETRACT for k: PEND clears and a hold is released (R271, R481); the port stands still with the uncore's clock. -/
def execExtRetract (k : BitVec 8) (s : State) : Host.Outcome State Fault Refusal :=
  .next (if s.ticStopped then s else retractSrc (64 + k.toNat) s)

/-- SETP: an edge on a source (R267, R269). -/
def execSourceSetPending (i : BitVec 9) (s : State) : Host.Outcome State Fault Refusal := .next (raiseSrc i.toNat s)

/-- THR.EVENT.SET: the thread's event (R175). -/
def execEventSet (t : ThreadId) (s : State) : Host.Outcome State Fault Refusal := .next (signalEvent t s)

/-- A register-read command returns its value at the port that asked. -/
def returnCell (v : Cell) (s : State) : State := { s with ports := { s.ports with rdata := v } }

/-- A read of TIC.CLAIM (R275). -/
def execTicClaim (t : ThreadId) (s : State) : Host.Outcome State Fault Refusal := .next (claim (returnCell (claimCell s t) s) t)

/-- A read of TIC.MCSTAT (R286). -/
def execMcstatRead (s : State) : Host.Outcome State Fault Refusal := .next (readMcstat (returnCell (mcstatCell s) s))

/-- A read of TIC.WAKE k (R270). -/
def execWakeLatchRead (k : Fin 7) (s : State) : Host.Outcome State Fault Refusal :=
  .next (readWake k.val (returnCell ((s.tic.latches >>> (48 * k.val)).setWidth 48) s))

/-! ### Interrupt entry -/

/-- The source that a return-stack frame names, if the thread's top entry is a status entry (R263). -/
def frameSource (s : State) (t : ThreadId) (l : Level) : Option Nat :=
  (s.stk t l true).res.head?.map fun c => (c.val.extractLsb' 21 9).toNat

/-- A late arrival, of higher priority than the IPL that the entry set, takes the entry over: the hold moves, SOURCE is rewritten, and
its priority is the IPL, also for the next late arrival (R278). -/
def lateArrival (t : ThreadId) (l : Level) (set : BitVec 4) (s : State) : State :=
  match bestSource s fun i => recognisable s t (s.thr t).arch.ipl (s.thr t).arch.level i && firstFor s t i &&
      decide ((s.src i).lvl = l ∧ set < (s.src i).prio) with
  | none => s
  | some i => match ensure t l true 1 s with
    | none => s
    | some s1 =>
      let s2 := match frameSource s1 t l with
        | some j => if (s1.src j).held = some t then releaseHold j s1 else s1
        | none => s1
      (holdFor i t (rewriteFrame t l i s2)).modThr t fun th =>
        { th with entering := some (l, (s.src i).prio), arch := { th.arch with ipl := (s.src i).prio } }

/-- A source of the frame's ENTRY level abandons the unstacking: the thread stands as after a chain, what was stored to its registers
meanwhile included (R282). The hold that the unstacking has released stays released (DESIGN CHOICE, notes/assumptions/152.md). -/
def abandonUnstack (t : ThreadId) (old : Arch) (s : State) : State :=
  match bestSource s fun i => recognisable s t (s.thr t).arch.ipl (s.thr t).arch.level i && firstFor s t i && decide ((s.src i).lvl = old.level) with
  | none => s
  | some i => chainTo t old.level i (s.modThr t fun th => { th with
      arch := old, unstack := none, skip := false
      leash := if th.leash.ovrpend then { th.leash with nest := th.leash.nest + 1 } else th.leash })

/-- Does the thread's block instruction wait for a step under way, so that it yields when the step ends (R156, R276)? -/
def yieldAsked (t : ThreadId) (b : BlockState) (s : State) : State :=
  s.modThr t fun th => { th with pend := .block { b with y := some 0 } }

/-- The word in flight is discarded (R214). None: a block instruction, whose step in progress is completed first (R156). -/
def clearPend (t : ThreadId) (s : State) : Option State :=
  match (s.thr t).pend with
  | .block _ => none
  | _ => some (discardPend t s)

/-- A thread takes something at its boundary: a wait whose end has come retires first (R177); a block instruction with a step in
progress yields when that step ends (R156); any other word in flight is discarded. -/
def takeAtBoundary (t : ThreadId) (k : State → State) (s : State) : State :=
  match clearPend t s, (s.thr t).pend with
  | some s1, _ => k s1
  | none, .block b => yieldAsked t b s
  | none, _ => s

/-- An interrupt is recognised for a thread at a boundary and entered (R273, R274, R264). A wait whose end has come retires first
(R177); what that leaves, a halt, a stopped thread or a machine check, may bar the recognition. -/
def interruptEntry (t : ThreadId) (s0 : State) : State :=
  let s := wake t s0
  if mayRecognise s t = false ∨ mcWaits s t then s
  else match recognised s t with
    | none => s
    | some i => takeAtBoundary t (fun s1 => enter t (s.src i).lvl (interruptEntryOf s i) (holdFor i t s1)) s

/-- INTERRUPT_ENTRY: inside the window of an entry or an unstacking only R278 and R282 apply; otherwise the thread stands at a
boundary, and a window left open is closed. A machine check goes first (R279). -/
def execInterruptEntry (t : ThreadId) (inWindow : Bool) (s : State) : Host.Outcome State Fault Refusal :=
  .next <|
    if mayRecognise s t = false ∨ (mcWaits s t ∧ inWindow = false) then s
    else if inWindow then
      match (s.thr t).entering, (s.thr t).unstack with
      | some (l, set), _ => lateArrival t l set s
      | none, some old => abandonUnstack t old s
      | none, none => s
    else interruptEntry t (beginWord t s)

/-! ### Machine check entry -/

/-- The entry of a machine check on its delivery thread: at M with cause 0x3F, REASON in the record, IPL 15 and MCACT; any leash
ends (R288, R255). -/
def machineCheckEnter (t : ThreadId) (s : State) : State :=
  let s1 := s.modThr t endLeash
  let r := tryEnter t .M
    { cause := 0x3F, src := 0, ipl := some 15, xrec := some { cause := 0x3F, sub := s.tic.mcReason, addr := 0 } } s1
  match r.1 with
  | none => r.2.modArch t fun a => { a with mcact := true }
  | some _ => failAtM t r.2

/-- MACHINE_CHECK_ENTRY (R287, R288): recognised while PEND is 1 and MCACT is 0, whatever the IPL, the level and a leash. A wait whose end
has come ends first, and a halt that its word meets holds the machine check off. DEDUCED (notes/assumptions/37.md). -/
def machineCheckEntry (s : State) : State :=
  match s.tic.mcPend, mcTarget s with
  | true, some t =>
    if mcWaits s t = false then s
    else if mcWaits (wake t s) t = false then wake t s
    else takeAtBoundary t (machineCheckEnter t) (beginWord t (wake t s))
  | _, _ => s
def execMachineCheckEntry (s : State) : Host.Outcome State Fault Refusal := .next (machineCheckEntry s)

/-! ### The leash's end (R255) -/

/-- COUNT has reached 0: the leash ends with LEASH_OVR, and the overrun exception waits where LEASH.TRAP asked for it at the LEASH (R253).
A debug halt holds it off (R257). -/
def execLeashExpiry (t : ThreadId) (s : State) : Host.Outcome State Fault Refusal :=
  let r := (s.thr t).leash
  .next <| if r.on ∧ r.count = 0 ∧ s.frozen = false then
      s.modThr t fun th => { th with leash := { r with
        on := false, ovr := true, ovrpend := r.ovrpend || r.trap, nest := if r.ovrpend then r.nest else 0 } }
    else s

/-- May a thread take an asynchronous exception at this boundary: its core runs, and neither a machine check nor an interrupt goes
first (R279)? -/
def atBoundary (s : State) (t : ThreadId) : Bool :=
  decide (s.boot = .run) && !s.frozen && coreUp s t.core && (s.thr t).en && !(s.thr t).stopped && !mcWaits s t &&
    !interruptWaits s t

/-- Is the overrun exception of a leash due: at a boundary of the leashed code, with no store fault before it (R255, R279)? -/
def overrunDue (s : State) (t : ThreadId) : Bool :=
  (s.thr t).leash.ovrpend && atBoundary s t && leashedCode (s.thr t) && (s.thr t).sfPend.isEmpty

/-- LEASH_OVERRUN: the exception is taken at the first boundary of the leashed code, after the requests that were held off and a
store fault (R255, R279). A wait that ends there ends first, and its own exception goes before the overrun. -/
def execLeashOverrun (t : ThreadId) (s : State) : Host.Outcome State Fault Refusal :=
  .next <|
    if overrunDue s t = false then s
    else if overrunDue (wake t s) t = false then wake t s
    else takeAtBoundary t (fun s1 => takeException t { cause := 0x0B, sub := 0, addr := 0 }
      (s1.modThr t fun x => { x with leash := { x.leash with ovrpend := false } })) (beginWord t (wake t s))

end Sys2Proof.Machine
end

