-- ==== Sys2Proof/Machine/Kennel.lean ====
section
/-! DEFINITION. The kennel's wipe, the borrow window, the scrubber, flash clears, and the reads of counters and logs (R311 to
R318, R336 to R348, R391). -/

namespace Sys2Proof.Machine

/-- Change the stored bytes at the addresses that pass a test. -/
def smMapWhere {α : Type} [DecidableEq α] (d : α) (p : Nat → Bool) (f : α → α) (m : SMap α) : SMap α :=
  (m.map fun e => if p e.1 then (e.1, f e.2) else e).filter fun e => decide (e.2 ≠ d)

/-- End the reservations on the cells whose first byte passes a test (R136). -/
def clearResvWhere (p : Nat → Bool) (s : State) : State :=
  s.mapThreads fun th => if th.resv.any p then { th with resv := none } else th

/-! ### The kennel's wipe (R311, R312) -/

/-- A crypto operation in flight at a wipe's trigger loses its operands; one that is still queued has not started (R401, R402). -/
def wipePend (isQueued : Bool) (th : Thread) : Thread :=
  match th.pend with
  | .helper k _ => if k.cls = 1 ∧ isQueued = false then { th with pend := .helper k [] } else th
  | _ => th

/-- The kennel is wiped: every byte reads as zero, buffered kennel stores are dropped, key slots are cleared, and the overwrite
starts from the first cell; TAMPER and a life-cycle transition also take back every grant (R311, R312, R402). -/
def wipeKennel (trig : BitVec 2) (s : State) : State :=
  let s1 := clearResvWhere isKennel { s with mem := s.mem.filter fun e => !isKennel e.1 }
  let wiped := fun (t : ThreadId) =>
    let th := s1.thr t
    wipePend (queuedFor s1 t 1) { th with grant := th.grant && decide (trig = 3) }
  let s2 : State := { s1 with threads := allThreads wiped }
  { s2 with
    cores := s2.cores.map fun k => { k with sb := k.sb.filter fun e => !isKennel e.ea.toNat }
    help := { s2.help with keys := [] }
    knl := { s2.knl with trig := trig, wiping := true } }

/-- An edge of TAMPER: source 37 and a wipe (R311, R482). -/
def execTamper (s : State) : Host.Outcome State Fault Refusal := .next (raiseSrc 37 (wipeKennel 1 s))

/-- KNL.CTL.WIPE (R311, R313). -/
def execKennelWipe (s : State) : Host.Outcome State Fault Refusal := .next (wipeKennel 3 s)

/-! ### The work of a life-cycle transition (R491) -/

/-- First byte address of a cell of the life-cycle area (R489). -/
def lcCell (i : Nat) : Nat := 0xF0000000 + 6 * i

/-- A set mark (R489). -/
def markCell (k : Nat) : Cell := BitVec.ofNat 48 (0x4C4300000000 + k)

/-- Write the three cells of a mark. -/
def writeMark (s : State) (k : Nat) : State :=
  [k - 1, k + 3, k + 7].foldl (fun acc i => keepStart .lifeCycle (lcCell i) (cellBytes (markCell k)) acc) s

/-- The life-cycle logic reads the cells of the n lowest marks (R333, R489). -/
def readMarks (n : Nat) (s : State) : State :=
  ((List.range n).flatMap fun k => [k, k + 4, k + 8]).foldl (fun acc i => logicReads (lcCell i) 6 acc) s

/-- Steps 3 and 4 of R491: the kennel's wipe, and the marks of the target and of every lower state that are still clear. -/
def lcMarks (s : State) : State :=
  let n := s.lc.target.toNat
  let s1 := wipeKennel 2 (readMarks (n - 1) { s with lc := { s.lc with phase := .marking } })
  ((List.range n).map (· + 1)).foldl (fun acc k => if k = n ∨ markAt s k = false then writeMark acc k else acc) s1

/-- Write the key and digest cells from 64 bytes, each with 4 zero bytes behind (R489, R491). -/
def writeKeys (bs : List Byte) (s : State) : State :=
  let z : List Byte := [0, 0, 0, 0]
  keepStart .lifeCycle (lcCell 16) (bs.drop 32 ++ z) (keepStart .lifeCycle (lcCell 24) (bs.take 32 ++ z) s)

/-- An accepted transition starts, once no overwrite of the kennel runs (R491, R493). DEDUCED (notes/assumptions/27.md). -/
def lcTry (s : State) : State :=
  if s.lc.busy ∧ s.lc.phase = .waiting ∧ s.knl.wiping = false then
    let s1 := { s with lc := { s.lc with phase := .copying } }
    match s.lc.target.toNat with
    | 2 => writeKeys (logicBytes s 0x10700004 64) (logicReads 0x10700004 64 s1)
    | 3 => writeKeys (List.replicate 64 0) s1
    | 4 => writeKeys (List.replicate 64 0) s1
    | _ => lcMarks s1
  else s

/-- The key and digest cells stand written: the transition goes on to the marks. -/
def lcNext (s : State) : State :=
  if s.lc.busy ∧ s.lc.phase = .copying ∧ keepHas s .lifeCycle = false then lcMarks s else s

/-! ### The end of the overwrite -/

/-- The overwrite ends: every kennel byte stands at zero with its valid bit clear, also one that a crypto operation wrote during the
overwrite (DEDUCED, notes/assumptions/112.md); DONE, source 7, and walker KN restarts, its interval afresh (R343). The overwrite runs only with the core clock
(R311, R345). -/
def execKennelOverwriteDone (s : State) : Host.Outcome State Fault Refusal :=
  .next <| if s.knl.wiping ∧ uncoreRuns s then
      lcTry (raiseSrc 7 { s with
        mem := s.mem.filter fun e => !isKennel e.1
        knl := { s.knl with wiping := false, done := true }
        ecc := { walkAfresh (· == 1) s.ecc with walk := s.ecc.walk.set 1 0 } })
    else s

/-! ### The borrow window (R314 to R318) -/

/-- The bytes of a core's window, by their offset in it, as the scratchpad stores them. -/
def windowOf (s : State) (c : CoreId) (base : BitVec 7) : SMap StoredByte :=
  let lo := spadBase c.val + base.toNat * 1024
  (s.mem.filter fun e => decide (lo ≤ e.1 ∧ e.1 < lo + 1024)).map fun e => (e.1 - lo, e.2)

def modBorrow (c : CoreId) (f : Borrow → Borrow) (s : State) : State := s.modCor c fun k => { k with borrow := f k.borrow }

/-- A START of CORE.BORROW: refused under R315, or the copy-in begins (R316). OWNER and BASE take the written values unless a
borrow is active (R314). -/
def borrowStart (c : CoreId) (owner base : BitVec 7) (s : State) : State :=
  let k := s.cor c
  if k.borrow.active then modBorrow c (fun w => { w with refused := true }) s
  else
    let s1 := modBorrow c (fun w => { w with owner := owner, base := base }) s
    if 96 ≤ base.toNat ∨ k.det ∨ k.act then modBorrow c (fun w => { w with refused := true }) s1
    else modBorrow c (fun w => { w with active := true, copying := true, back := false, buf := [] }) s1
def execBorrowStart (c : CoreId) (owner : ThreadId) (base : BitVec 7) (s : State) : Host.Outcome State Fault Refusal :=
  .next (borrowStart c (BitVec.ofNat 7 owner.val) base s)

/-- The copy-in is complete: the buffer holds the window as it is stored (R316). -/
def copyIn (c : CoreId) (s : State) : State :=
  modBorrow c (fun w => { w with copying := false, buf := windowOf s c w.base }) s

/-- The copy-in ends (R316). DESIGN CHOICE, unsafe (log entry 96): it ends in a debug halt as in run, and so does a copy-back; the table
of R460 names the borrow copy in neither of its columns. -/
def execBorrowCopyInDone (c : CoreId) (s : State) : Host.Outcome State Fault Refusal :=
  let w := (s.cor c).borrow
  .next (if w.active ∧ w.copying ∧ w.back = false then copyIn c s else s)

/-- A RELEASE: the copy-back begins, after a copy-in that still runs (R318). DEDUCED (notes/assumptions/39.md). -/
def borrowRelease (c : CoreId) (s : State) : State :=
  let w := (s.cor c).borrow
  if w.active = false ∨ (w.copying ∧ w.back) then s
  else modBorrow c (fun x => { x with copying := true, back := true }) (if w.copying then copyIn c s else s)
def execBorrowRelease (c : CoreId) (s : State) : Host.Outcome State Fault Refusal := .next (borrowRelease c s)

/-- The copy-back ends: the window holds the buffer's stored bytes, and ACTIVE clears (R318, R331). It ends the reservations on every cell
of which it writes a byte, as a store does (DEDUCED, notes/assumptions/39.md). -/
def execBorrowCopyBackDone (c : CoreId) (s : State) : Host.Outcome State Fault Refusal :=
  let w := (s.cor c).borrow
  .next <| if w.active ∧ w.copying ∧ w.back then
      let lo := spadBase c.val + w.base.toNat * 1024
      let inWin := fun a => decide (lo ≤ a ∧ a < lo + 1024)
      let s1 := clearResvWhere (fun key => (span key 6).any inWin) { s with mem := s.mem.filter fun e => !inWin e.1 }
      let s2 := w.buf.foldl (fun acc e => putMem acc (lo + e.1) e.2) s1
      modBorrow c (fun x => { x with active := false, copying := false, back := false, buf := [] }) s2
    else s

/-! ### The scrubber (R340 to R345) -/

/-- The memory of a walker: its first byte, its length and its steps per pass (R342). -/
def walkerSpan (w : Nat) : Nat × Nat × Nat :=
  if w = 0 then (0x10000000, 0x600000, 1048577)
  else if w = 1 then (0x10700000, 0x60000, 65537)
  else (spadBase (w - 2), 0x18000, 16384)

/-- The bytes of step n of a walker: those of one stored cell that lie inside its memory (R342). -/
def walkerBytes (w n : Nat) : List Nat :=
  let m := walkerSpan w
  let first := if 2 ≤ w then m.1 else m.1 - m.1 % 6
  (span (first + 6 * n) 6).filter fun a => decide (m.1 ≤ a ∧ a < m.1 + m.2.1)

/-- Does a step write the byte at an address back (R340)? -/
def scrubWrites (s : State) (a : Nat) : Bool :=
  match classify (rawByte s .normal a) with
  | .ce _ => true
  | .ue => true
  | _ => false

/-- What the scrubber does with one byte (R340). -/
def scrubByte (a : Nat) (s : State) : State :=
  let b := rawByte s .normal a
  match classify b with
  | .ce d => logCE (byteEntry a b true) (countCE (bankOf a) (putRaw s .normal a (encByte d)))
  | .ue =>
    let s1 := logUE (byteEntry a b true) (putRaw s .normal a poisonByte)
    raiseSrc 5 { s1 with ecc := { s1.ecc with poisoned := true } }
  | _ => s

/-- May a walker step: its step is due, the profile load has set its intervals, the uncore clock runs with no debug halt, the walker is
enabled, its memory is served and not being overwritten (R343 to R345, R460, R484)? -/
def walkerMay (s : State) (w : Nat) : Bool :=
  !s.resetHeld && !s.frozen && uncoreRuns s && walkerServed s w && decide (s.ecc.left.getD w 0 = 0)

/-- One step of a walker (R342, R343). The next interval, at the RATE of now, counts from the cycle of the step, or from the next one where
the step writes back (DEDUCED, notes/assumptions/138.md). -/
def scrubStep (w : Nat) (s : State) : State :=
  if walkerMay s w = false then s
  else
    let n := s.ecc.walk.getD w 0
    let bytes := walkerBytes w n
    let s1 := bytes.foldl (fun acc a => scrubByte a acc) s
    let wraps := decide ((walkerSpan w).2.2 ≤ n + 1)
    let next := walkInterval s.ecc.rate + (if bytes.any (scrubWrites s) then 1 else 0)
    let s2 := { s1 with ecc := { s1.ecc with
      walk := s1.ecc.walk.set w (if wraps then 0 else n + 1), left := s1.ecc.left.set w next } }
    if w = 0 ∧ wraps then raiseSrc 4 { s2 with ecc := { s2.ecc with pass := true } } else s2
def execScrubStep (walker : Fin 18) (s : State) : Host.Outcome State Fault Refusal := .next (scrubStep walker.val s)

/-! ### Flash clears (R346 to R348) -/

/-- Is a commanded clear of a bank accepted: a shared-SRAM bank, or a scratchpad bank of a core not in Doze (R348)? A core whose Doze is
emulated (R458) takes it (DESIGN CHOICE, notes/assumptions/124.md). -/
def clearable (s : State) (b : Nat) : Bool :=
  decide (b < 16) ||
    (decide (20 ≤ b ∧ b < 84) && (coreIds.filter fun c => decide (c.val = (b - 20) / 4)).all fun c =>
      decide ((s.cor c).rest ≠ .doze) || s.dbg.attached)

/-- ECC.CLEAR.GO: V of every byte of the bank clears, and every reservation on its cells ends (R346 to R348).
DEDUCED (notes/assumptions/38.md). -/
def flashClear (bank : BitVec 7) (s : State) : State :=
  let s1 := { s with ecc := { s.ecc with clearBank := bank } }
  if s.ecc.clearBusy ∨ clearable s bank.toNat = false then s1
  else
    let mine := fun a => decide (bankOf a = bank.toNat)
    let s2 := clearResvWhere mine { s1 with mem := smMapWhere 0 mine (fun b => b &&& 0x1FFF) s1.mem }
    { s2 with ecc := { s2.ecc with clearBusy := true } }
def execFlashClear (bank : BitVec 7) (s : State) : Host.Outcome State Fault Refusal := .next (flashClear bank s)

/-- A commanded clear ends: BUSY falls (R346, R348). -/
def execFlashClearDone (s : State) : Host.Outcome State Fault Refusal :=
  .next { s with ecc := { s.ecc with clearBusy := false } }

/-! ### Reads of counters and logs -/

/-- A read of ECC.CECNT[b] (R336). -/
def execCeCounterRead (b : Fin 86) (s : State) : Host.Outcome State Fault Refusal :=
  .next (readCecnt b.val (returnCell (regPeek s (.tile (128 + b.val))) s))

/-- A read of ECC.CELOG (R338). -/
def execCeLogRead (s : State) : Host.Outcome State Fault Refusal := .next (readCelog (returnCell (eccCell s.ecc.celog) s))

/-- A read of ECC.UELOG (R338). -/
def execUeLogRead (s : State) : Host.Outcome State Fault Refusal := .next (readUelog (returnCell (eccCell s.ecc.uelog) s))

/-- A read of HEEL.LOSSLOG (R391). -/
def execLossLogRead (s : State) : Host.Outcome State Fault Refusal :=
  .next (readLosslog (returnCell (lossCell s.heel.losslog) s))

end Sys2Proof.Machine
end

