-- ==== Sys2Proof/Machine/Work.lean ====
section
/-! DEFINITION. The work instructions (R179 to R189) and the end of a visit (R18). -/

namespace Sys2Proof.Machine

/-- GETWORK ( tl -- ), rs ( -- ra ) when an item is taken (R181, R182). -/
def semGetwork (t : ThreadId) : WordSem := WordSem.plain 2 0 fun cs s =>
  if (currentItem s t).isSome then .trap excOperand s
  else match (s.thr t).slot with
    | some id => takeItem t id s
    | none =>
      let s1 := s.modThr t fun th => { th with dl := .infinite }
      if limitReached s t.core (dblTop cs) then .next (popPush t 2 [] s1)
      else .hold (park t (.getwork (dblTop cs)) s1)
def execGetwork (t : ThreadId) (g : Guard) (s : State) : Host.Outcome State Fault Refusal := .next (runWord t g (semGetwork t) s)

/-- The destination a FORWARD cell names; none where the cell is refused (R185). -/
def destOf (s : State) (c : Cell) : Option Dest :=
  if c.extractLsb' 10 36 ≠ 0 then none
  else match (c.extractLsb' 46 2).toNat with
    | 0 => some .none
    | 1 =>
      let k : BitVec 8 := c.extractLsb' 0 8
      if c.extractLsb' 8 2 ≠ 0 ∨ (s.nodeOf k).en = false then none else some (.node k)
    | 2 => some (.port (c.extractLsb' 0 10))
    | _ => none

/-- FORWARD ( dest -- ) (R185). -/
def semForward (t : ThreadId) : WordSem := WordSem.plain 1 0 fun cs s =>
  match currentItem s t, destOf s (cs.getD 0 (PCell.of 0)).val with
  | some it, some d => .next (modItem (popPush t 1 [] s) it.id fun x => { x with dest := d })
  | _, _ => .trap excOperand s
def execForward (t : ThreadId) (g : Guard) (s : State) : Host.Outcome State Fault Refusal := .next (runWord t g (semForward t) s)

/-- This visit's edits join the item's kept edits (R16). -/
def keepEdits (it : Item) : Item :=
  { it with kept := it.edits.foldl (fun acc e => putEdit acc e.1 e.2) it.kept, edits := [] }

/-- The item is queued at another node, at the PRIO of that node, eligible 3 cc after the retire (R18, R21, R356, R363, R372). -/
def transferItem (s : State) (it : Item) (k : BitVec 8) : State :=
  let n := s.nodeOf k
  let s1 := dropW (dropTag s it.id) it
  let s2 := modItem s1 it.id fun x =>
    { keepEdits x with
      node := k
      prio := none
      place := .queued
      firstDone := true
      elig := s1.fetch.nextElig
      eligCyc := s1.fetch.cycle + 3
      deadline := x.deadline + ccUnits s n.budget.toNat
      visit := if x.visit = 255 then 255 else x.visit + 1
      dest := .none }
  noteQueue s { s2 with fetch := { s2.fetch with nextElig := s2.fetch.nextElig + 1 } }

/-- The end of a visit (R18, R186, R357, R382): `drop` for DROPW. -/
def endVisit (t : ThreadId) (it : Item) (drop : Bool) (s : State) : State :=
  let s1 :=
    if it.marked then readyCancelled s it
    else if drop then makeReady s it.id actDrop it.inPort
    else match it.dest with
      | .none => makeReady s it.id actDrop it.inPort
      | .port p => makeReady (modItem s it.id keepEdits) it.id actForward p
      | .node k => if (s.nodeOf k).en then transferItem s it k else makeReady s it.id actDrop it.inPort
  wakeTags (s1.modThr t fun th => { th with cur := none })

/-- The body of DONE and DROPW: they wait as FENCE does (R186). One that a debugger steps behind a refused store ends the visit once the
store has left the buffer (R460; DESIGN CHOICE, notes/assumptions/89.md). -/
def endVisitBody (t : ThreadId) (drop : Bool) (s : State) : WRes :=
  match currentItem s t with
  | none => .trap excOperand s
  | some it => if (storesOf s t).isEmpty then .next (endVisit t it drop s) else .hold s

/-- DONE (R18, R186). -/
def semDoneW (t : ThreadId) : WordSem := WordSem.plain 0 0 fun _ s => endVisitBody t false s
def execDoneW (t : ThreadId) (g : Guard) (s : State) : Host.Outcome State Fault Refusal := .next (runWord t g (semDoneW t) s)

/-- DROPW (R18, R186). -/
def semDropw (t : ThreadId) : WordSem := WordSem.plain 0 0 fun _ s => endVisitBody t true s
def execDropw (t : ThreadId) (g : Guard) (s : State) : Host.Outcome State Fault Refusal := .next (runWord t g (semDropw t) s)

/-- Is a TAG refused (R187): its node is not ATOMIC-TAG, a high bit is set, a tag is held, or another tag is lodged? -/
def tagRefused (s : State) (it : Item) (c : Cell) : Bool :=
  decide ((s.nodeOf it.node).ord ≠ .atomicTag ∨ c.extractLsb' 32 16 ≠ 0) ||
    (match it.tag with
      | none => false
      | some (_, .held) => true
      | some (g, _) => decide (g ≠ c.extractLsb' 0 32))

/-- The item requests a tag, or resumes the place of its lodged request, and the tag is granted where it is free (R187, R188,
R380). -/
def requestTag (s : State) (it : Item) (tag : BitVec 32) : State :=
  grantTag (modItem s it.id fun x => match x.tag with
    | some (g, .granted) => { x with tag := some (g, .granted) }
    | _ => { x with tag := some (tag, .waiting) }) tag

/-- TAG ( tag tl -- f ) (R187, R176). -/
def semTag (t : ThreadId) : WordSem := WordSem.plain 3 1 fun cs s =>
  let c := (cs.getD 2 (PCell.of 0)).val
  let tag : BitVec 32 := c.extractLsb' 0 32
  match currentItem s t with
  | none => .trap excOperand s
  | some it =>
    if tagRefused s it c then .trap excOperand s
    else
      let s1 := requestTag s it tag
      if (currentItem s1 t).any (fun x => decide (x.tag = some (tag, .granted))) then
        .next (modItem (popPush t 3 [flagCell true] s1) it.id fun x => { x with tag := some (tag, .held) })
      else if limitReached s t.core (dblTop cs) then .next (lodgeTag (popPush t 3 [flagCell false] s1) t)
      else .hold (park t (.tag tag (dblTop cs)) s1)
def execTag (t : ThreadId) (g : Guard) (s : State) : Host.Outcome State Fault Refusal := .next (runWord t g (semTag t) s)

/-- UNTAG (R188, R180). -/
def semUntag (t : ThreadId) : WordSem := WordSem.plain 0 0 fun _ s =>
  match currentItem s t with
  | none => .next s
  | some it => match it.tag with
    | some (_, .held) => .next (wakeTags (dropTag s it.id))
    | _ => .next s
def execUntag (t : ThreadId) (g : Guard) (s : State) : Host.Outcome State Fault Refusal := .next (runWord t g (semUntag t) s)

/-- SETLAUNCH ( t -- ) (R189). -/
def semSetlaunch (t : ThreadId) : WordSem := WordSem.plain 2 0 fun cs s =>
  match currentItem s t with
  | none => .trap excOperand s
  | some it =>
    let v := (dblTop cs).val
    if (s.copyNow t.core : Int) + secondUnits < v then .trap excOperand s
    else .next (modItem (popPush t 2 [] s) it.id fun x => { x with launch := some (dblOf v) })
def execSetlaunch (t : ThreadId) (g : Guard) (s : State) : Host.Outcome State Fault Refusal := .next (runWord t g (semSetlaunch t) s)

end Sys2Proof.Machine
end

