-- ==== Sys2Proof/Machine/Fetch.lean ====
section
/-! DEFINITION. The fetch unit and the heel: descriptors, admission, cancels, fence tokens, slot fills and moves, ledgers,
release records and stuck items (chapters 1 and 12). -/

namespace Sys2Proof.Machine

/-! ### Ports -/

/-- Do the fetch unit and the heel run: the tile has booted, no debug halt freezes them, the uncore's clock runs (R460, R476)? -/
def fetchRuns (s : State) : Bool := countsRun s && uncoreRuns s

/-- IDESC_READY, IDATA_READY and FETCH_WANT (R367, R475 to R477). -/
def idescReady (s : State) : Bool := fetchRuns s
def idataReady (s : State) : Bool := decide (s.boot = .run) && uncoreRuns s
def fetchWant (s : State) : BitVec 16 := if s.pwr.rest = .off then 0 else hungry s

/-- Status codes of R10. -/
def stAccept : BitVec 2 := 0
def stBusy : BitVec 2 := 1
def stReject : BitVec 2 := 2
def stOrder : BitVec 2 := 3

/-- The answer to a descriptor, with its flag and source (R10, R393). -/
def answer (st : BitVec 2) (s : State) : State :=
  let s1 := { s with ports := { s.ports with idescSt := st, idescStValid := true } }
  if st = stAccept then s1
  else if st = stBusy then raiseSrc 11 { s1 with fetch := { s1.fetch with decl := true } }
  else raiseSrc 12 { s1 with fetch := { s1.fetch with refuse := true } }

/-- A wake of a core wakes a napping uncore, or a tile whose Sleep is emulated, and withdraws a request for a deeper level (R437,
R439, R447, R458). -/
def wakeUncore (s : State) : State :=
  { s with pwr := { s.pwr with
    req := none
    waking := s.pwr.waking || decide (s.pwr.rest = .nap) || (decide (s.pwr.rest = .sleep) && s.dbg.attached) } }

/-- A descriptor is offered: it is taken when the port is ready, and an entry into a rest level that waits for the host is
abandoned; it wakes a napping uncore, before which it waits unless the nap is emulated (R437, R447, R458, R476). -/
def offered (f : State → State) (s : State) : State :=
  if fetchRuns s then f (wakeUncore s)
  else if s.pwr.rest = .nap ∧ s.frozen = false then wakeUncore s
  else s

/-! ### Admission (R368 to R373) -/

/-- May a core run a first visit at a node (R364)? DEDUCED (notes/assumptions/41.md). -/
def coreAllowed (s : State) (n : Node) (c : CoreId) : Bool :=
  let k := s.cor c
  n.cores.getLsbD c.val && (List.range 4).all (fun i => !n.aff.getLsbD i || helperPresent s i) && k.enabled && !k.fenced &&
    k.inReset.isNone && (coreThreads c).any fun t => (s.thr t).en && !(s.thr t).stopped

/-- Is a core a normal core that is enabled and not fenced (R369), with its admission capacity back after a core reset (R390)? -/
def normalCore (s : State) (c : CoreId) : Bool :=
  (s.cor c).enabled && !(s.cor c).fenced && !(s.cor c).act && (s.cor c).inReset.isNone

/-- P_L(j) of R369. -/
def ledgerP (l : List Nat) (j : Nat) : Nat := (l.take (j + 1)).sum

/-- Does a ledger pass with n sixteenths of the time to each slot's end (R369)? -/
def ledgerPasses (f : Fetch) (l : List Nat) (n : Nat) : Bool :=
  (List.range 32).all fun j => decide (16 * (ledgerP l j : Int) ≤ n * (16 * (f.beta + j + 1) - f.cycle : Int))

/-- The slot of a cycle deadline (R368). -/
def slotOf (f : Fetch) (d : Int) : Nat := min 31 (d / 16 - f.beta).toNat

/-- λ: the cycles by which A precedes the acceptance cycle, rounded up (R368). -/
def lagCycles (s : State) (a : Int) : Int :=
  let u : Int := 65536 * clkDiv s.profile.clk
  ((s.now - a) * 3 + u - 1) / u

/-- The exit figure of a resting core in core cycles, rounded up (R436). DEDUCED (notes/assumptions/40.md). -/
def exitCycles (s : State) (c : CoreId) : Nat :=
  let d := clkDiv s.profile.clk
  match (s.cor c).rest with
  | .run => 0
  | .nap => (40 * 3 + d - 1) / d
  | .doze => (2000 * 3 + d - 1) / d

/-- What admission books: w at the slot of δ1 and PATHW at the slot of δE. -/
structure Ask where
  slotW : Nat
  w : Nat
  slotP : Nat
  p : Nat
  deriving DecidableEq, Repr

/-- Does a normal core pass with the item added (R370)? -/
def corePasses (s : State) (n : Node) (a : Ask) (c : CoreId) : Bool :=
  let l := ledgerAdd (s.fetch.ledgers.getD c.val []) a.slotW (a.w + exitCycles s c)
  coreAllowed s n c && normalCore s c && ledgerPasses s.fetch l (16 - s.fetch.xshare.toNat)

/-- Does the transfer ledger pass with the item added (R370)? -/
def transferPasses (s : State) (a : Ask) : Bool :=
  ledgerPasses s.fetch (ledgerAdd s.fetch.transfer a.slotP a.p)
    (s.fetch.xshare.toNat * (coreIds.filter (normalCore s)).length) &&
  decide (a.p = 0 ∨ s.fetch.xshare ≠ 0)

/-- The core with the smallest P_c(31) among some, the lowest number among equals (R370). -/
def leastLoaded (s : State) (cs : List CoreId) : Option CoreId :=
  cs.foldl (fun acc c => match acc with
    | none => some c
    | some b => if (s.fetch.ledgers.getD c.val []).sum < (s.fetch.ledgers.getD b.val []).sum then some c else some b) none

/-- The lowest allowed deterministic core with a free token (R371). -/
def tokenCore (s : State) (n : Node) : Option CoreId :=
  coreIds.find? fun c => coreAllowed s n c && (s.cor c).act && decide (tokensUsed s c < (s.cor c).rrlen.toNat)

/-- How an item is admitted: on a normal core, with a token, on no core. -/
inductive Admit where
  | core (c : CoreId)
  | token (c : CoreId)
  | free
  deriving DecidableEq, Repr

/-- The admission decision; none declines the item (R370, R371, R373). DESIGN CHOICE, unsafe (log entry 90): the last line of R370
(XSHARE 0 and PATHW > 0: declined) is read as a rule of its normal cores, so that at a node that a deterministic core may run too
such an item is still admitted on a free token (R371). -/
def admission (s : State) (n : Node) (a : Ask) : Option Admit :=
  let normals := coreIds.filter fun c => coreAllowed s n c && normalCore s c
  if s.fetch.admitOn then
    match (if transferPasses s a then leastLoaded s (normals.filter (corePasses s n a)) else none) with
    | some c => some (.core c)
    | none => (tokenCore s n).map Admit.token
  else match leastLoaded s normals with
    | some c => some (.core c)
    | none => match tokenCore s n with
      | some c => some (.token c)
      | none => some .free

/-- A resting core that is booked, or whose fetch slot fills, wakes (R436, R437). -/
def wakeForWork (c : CoreId) (s : State) : State :=
  if (s.cor c).rest = .run then s else wakeUncore (s.modCor c fun k => { k with waking := true })

/-! ### Descriptors (R9 to R12) -/

/-- The flow's entry after an acceptance (R359, R360). -/
def flowAccept (f : Flow) (ord : NodeOrd) (seq : BitVec 24) : Flow :=
  let g : Flow :=
    if f.fresh then
      let free := decide (ord = .free)
      { f with fresh := false, free := free, nextr := if free then f.nextr else seq, nexta := if free then f.nexta else seq + 1 }
    else if f.free then f
    else { f with nexta := f.nexta + 1 }
  { g with infl := g.infl + 1, state := if g.state = .idle then .active else g.state }

/-- The item of an accepted descriptor (R9, R12, R21); VISIT is 1 at its first node (R184). It becomes eligible 3 cc after the cycle in which
the descriptor was presented, the one in which it is taken (R13; DEDUCED, notes/assumptions/137.md). -/
def newItem (s : State) (c0 c1 c2 c3 : Cell) (n : Node) (a : Int) (ask : Ask) (ad : Admit) : Item where
  id := s.fetch.nextId
  arrived := true
  flow := c0.extractLsb' 32 16
  seq := c0.extractLsb' 8 24
  desc0 := c0
  desc1 := c1
  desc2 := c2
  desc3 := c3
  node := c0.extractLsb' 0 8
  prio := some (c1.extractLsb' 35 3)
  elig := s.fetch.nextElig
  eligCyc := s.fetch.cycle + 3
  place := .queued
  taken := false
  firstDone := false
  deadline := a + ccUnits s n.budget.toNat
  visit := 1
  visitCyc := 0
  kept := []
  edits := []
  launch := none
  dest := .none
  marked := false
  action := 0
  port := 0
  ordered := none
  readyCyc := 0
  reached := none
  lifted := 0
  slotW := s.fetch.beta + ask.slotW
  amtW := ask.w
  slotP := s.fetch.beta + ask.slotP
  amtP := ask.p
  bookW := match ad with
    | .core c => some { core := some c, slot := s.fetch.beta + ask.slotW, amount := ask.w }
    | _ => none
  bookP := match ad with
    | .token _ => if s.fetch.admitOn then none else some { core := none, slot := s.fetch.beta + ask.slotP, amount := ask.p }
    | _ => some { core := none, slot := s.fetch.beta + ask.slotP, amount := ask.p }
  firstCore := match ad with
    | .core c => some c
    | .token c => some c
    | .free => none
  anyCore := match ad with
    | .free => true
    | _ => false
  token := match ad with
    | .token c => some c
    | _ => none
  tag := none

/-- Add an item or hole to the fetch unit and put its bookings on their ledgers. -/
def addItem (it : Item) (s : State) : State :=
  let f1 := it.bookW.elim s.fetch (bookOn s.fetch)
  let f2 := it.bookP.elim f1 (bookOn f1)
  let f3 := { f2 with items := f2.items ++ [it], nextId := f2.nextId + 1, nextElig := f2.nextElig + 1 }
  noteQueue s { s with fetch := f3 }

/-- The ledgers stand at β₀ of the acceptance cycle (R368). -/
def atBeta (s : State) : State := { s with fetch := ledgerCatchUp s.fetch }

/-- The status of an ITEM descriptor, and the item it makes (R10). -/
def descriptor (c0 c1 c2 c3 : Cell) (s : State) : BitVec 2 × Option (Item × Admit) :=
  let n := s.nodeOf (c0.extractLsb' 0 8)
  let f := s.flow (c0.extractLsb' 32 16)
  let len := (c1.extractLsb' 21 14).toNat
  let handle := (c1.extractLsb' 0 21).toNat
  if n.en = false ∨ 174762 < handle + (len + 5) / 6 ∨ (f.fresh = false ∧ f.free ≠ decide (n.ord = .free)) then (stReject, none)
  else if f.fresh = false ∧ f.free = false ∧ c0.extractLsb' 8 24 ≠ f.nexta then (stOrder, none)
  else
    let a := min ({ hi := c2, lo := c3 } : Dbl).val (s.now : Int)
    let d1 : Int := s.fetch.cycle - lagCycles s a + n.budget.toNat
    let d2 : Int := d1 + n.pathb.toNat
    let ask : Ask := { slotW := slotOf s.fetch d1, w := n.cost.toNat, slotP := slotOf s.fetch d2, p := n.pathw.toNat }
    match admission s n ask with
    | none => (stBusy, none)
    | some ad =>
      if 3968 ≤ qcount s ∨ f.state = .leaving then (stBusy, none)
      else (stAccept, some (newItem s c0 c1 c2 c3 n a ask ad, ad))

/-- An ITEM descriptor is taken and answered (R10). -/
def takeDescriptor (c0 c1 c2 c3 : Cell) (s0 : State) : State :=
  let s := atBeta s0
  match descriptor c0 c1 c2 c3 s with
  | (st, none) => answer st s
  | (st, some (it, ad)) =>
    let f := flowAccept (s.flow it.flow) (s.nodeOf it.node).ord it.seq
    let s1 := answer st (addItem it (s.setFlow it.flow f))
    match ad with
    | .core c => wakeForWork c s1
    | .token c => wakeForWork c s1
    | .free => s1
/-- ITEM_DESCRIPTOR; an offer with IDESC_KIND 0b11 is answered REJECT (R475). DESIGN CHOICE (notes/assumptions/87.md). -/
def execItemDescriptor (c0 c1 c2 c3 : Cell) (s : State) (kind : BitVec 2 := 0) : Host.Outcome State Fault Refusal :=
  .next (offered (if kind = 3 then answer stReject else takeDescriptor c0 c1 c2 c3) s)

/-! ### Cancels (R382, R383) -/

/-- A hole for a sequence that never arrived (R377, R382). -/
def emptyHole (s : State) (flow : BitVec 16) (seq : BitVec 24) : Item where
  id := s.fetch.nextId
  arrived := false
  flow := flow
  seq := seq
  desc0 := 0
  desc1 := 0
  desc2 := 0
  desc3 := 0
  node := 0
  prio := none
  elig := s.fetch.nextElig
  eligCyc := s.fetch.cycle
  place := .hole
  taken := false
  firstDone := false
  deadline := 0
  visit := 0
  visitCyc := 0
  kept := []
  edits := []
  launch := none
  dest := .none
  marked := false
  action := actCancelled
  port := 0
  ordered := none
  readyCyc := s.fetch.cycle
  reached := none
  lifted := 0
  slotW := 0
  amtW := 0
  slotP := 0
  amtP := 0
  bookW := none
  bookP := none
  firstCore := none
  anyCore := false
  token := none
  tag := none

/-- Queue a hole for the flow's next sequence (R382, R385). -/
def addHole (flow : BitVec 16) (s : State) : State :=
  let f := s.flow flow
  addItem (emptyHole s flow f.nexta) (s.setFlow flow
    { f with nexta := f.nexta + 1, infl := f.infl + 1, state := if f.state = .idle then .active else f.state })

/-- A queued item, or one in a slot, becomes a hole: its bookings and its tag leave (R382). DESIGN CHOICE, unsafe (log entry 91): a launch
time that an earlier visit set is dropped, as R382 drops that of a ready item, so the hole's record has LAUNCH 0. -/
def becomeHole (s : State) (it : Item) : State :=
  let s1 := match it.place with
    | .slot t => s.modThr t fun th => { th with slot := none }
    | _ => s
  let s2 := dropTag (dropBookings s1 it) it.id
  wakeTags (modItem s2 it.id fun x => { x with
    place := .hole
    action := actCancelled
    port := it.inPort
    readyCyc := s.fetch.cycle
    kept := []
    edits := []
    launch := none })

/-- Has an item already been cancelled? -/
def isCancelled (it : Item) : Bool :=
  match it.place with
  | .hole => true
  | .ready => decide (it.action = actCancelled)
  | _ => it.marked

/-- The cycle from which on an item's launch time has been reached; the present one where no cycle has ended since (R376). -/
def reachedAt (s : State) (it : Item) : Nat := it.reached.getD s.fetch.cycle

/-- A cancel reaches an item held in the tile (R382). DESIGN CHOICE, unsafe (log entry 91): the bookings and the tag of a marked current
item leave when its visit ends, as R372 has them leave, and not in the cycle of the cancel. -/
def cancelItem (s : State) (it : Item) : State :=
  if isCancelled it then s
  else match it.place with
    | .current _ => modItem s it.id fun x => { x with marked := true }
    | .ready => modItem s it.id fun x => { x with
        action := actCancelled, port := it.inPort, kept := [], edits := [], launch := none
        lifted := if it.launch.isSome then reachedAt s it else x.lifted }
    | _ => becomeHole s it

/-- The held item that a cancel names: of a free flow, the earliest accepted one that no cancel has reached yet, if there is one
(R382). -/
def cancelTarget (s : State) (flow : BitVec 16) (seq : BitVec 24) : Option Item :=
  let hits := s.fetch.items.filter fun it => decide (it.flow = flow ∧ it.seq = seq)
  match hits.find? fun it => !isCancelled it with
  | some it => some it
  | none => hits.head?

/-- A CANCEL descriptor is taken and answered (R382). -/
def takeCancel (c0 : Cell) (s0 : State) : State :=
  let s := atBeta s0
  let flow : BitVec 16 := c0.extractLsb' 32 16
  let seq : BitVec 24 := c0.extractLsb' 8 24
  let f := s.flow flow
  if c0.extractLsb' 0 8 ≠ 0 ∨ f.fresh ∨ f.state = .leaving then answer stReject s
  else if f.free = false ∧ seq = f.nexta then
    (if 3968 ≤ qcount s then answer stBusy s else answer stAccept (addHole flow s))
  else match cancelTarget s flow seq with
    | some it => answer stAccept (cancelItem s it)
    | none =>
      if f.free = false ∧ (seq - f.nexta).toNat < 2 ^ 23 then answer stOrder s else answer stReject s
def execCancel (c0 _c1 _c2 _c3 : Cell) (s : State) : Host.Outcome State Fault Refusal := .next (offered (takeCancel c0) s)

/-! ### Fence tokens (R385, R386) -/

/-- An OUT token (R385). DEDUCED (notes/assumptions/43.md). -/
def tokenOut (flow : BitVec 16) (sq : BitVec 24) (s : State) : State :=
  let f := s.flow flow
  let n := (sq - f.nexta).toNat
  let bare := f.fresh || f.free
  if f.state = .arriving ∨ 64 < n then answer stReject s
  else if bare = false ∧ n ≠ 0 ∧ 3968 < qcount s + n then answer stBusy s
  else
    let s1 := if bare then s.setFlow flow { f with nexta := sq, nextr := sq }
      else (List.range n).foldl (fun acc _ => addHole flow acc) s
    answer stAccept (s1.setFlow flow { s1.flow flow with state := .leaving, leaveAt := sq })

/-- An IN token (R385). -/
def tokenIn (flow : BitVec 16) (sq : BitVec 24) (s : State) : State :=
  let f := s.flow flow
  if f.state ≠ .idle then answer stReject s
  else answer stAccept (s.setFlow flow { f with state := .arriving, free := false, fresh := false, nexta := sq, nextr := sq })

/-- A DRAINED token (R385). -/
def tokenDrained (flow : BitVec 16) (sq : BitVec 24) (s : State) : State :=
  let f := s.flow flow
  if f.state ≠ .arriving ∨ sq ≠ f.nextr then answer stReject s
  else answer stAccept (s.setFlow flow { f with state := if f.infl = 0 then .idle else .active, drainedCyc := s.fetch.cycle })

/-- A FENCE descriptor is taken and answered by its FKIND (R385). DESIGN CHOICE, unsafe (log entry 92): bits [7:0] of cell 0, which R385
names neither as a field nor among those that must be 0, are ignored. -/
def takeToken (c0 c1 c2 c3 : Cell) (s0 : State) : State :=
  let s := atBeta s0
  let flow : BitVec 16 := c0.extractLsb' 32 16
  let sq : BitVec 24 := c0.extractLsb' 8 24
  if c1.extractLsb' 0 46 ≠ 0 ∨ c2 ≠ 0 ∨ c3 ≠ 0 then answer stReject s
  else match (c1.extractLsb' 46 2).toNat with
    | 0 => tokenOut flow sq s
    | 1 => tokenIn flow sq s
    | 2 => tokenDrained flow sq s
    | _ => answer stReject s

/-- OUT: FKIND 0b00 (R385). -/
def execFenceOut (c0 c1 c2 c3 : Cell) (s : State) : Host.Outcome State Fault Refusal :=
  .next (offered (takeToken c0 c1 c2 c3) s)

/-- IN: FKIND 0b01 (R385). -/
def execFenceIn (c0 c1 c2 c3 : Cell) (s : State) : Host.Outcome State Fault Refusal :=
  .next (offered (takeToken c0 c1 c2 c3) s)

/-- DRAINED: FKIND 0b10 (R385). -/
def execFenceDrained (c0 c1 c2 c3 : Cell) (s : State) : Host.Outcome State Fault Refusal :=
  .next (offered (takeToken c0 c1 c2 c3) s)

/-! ### The stash, slots and ledgers -/

/-- A beat of the ingress data port writes the bytes it enables into the stash (R477). -/
def stashBeat (beat : BitVec 14) (be : BitVec 64) (data : BitVec 512) (s : State) : State :=
  (List.range 64).foldl (fun acc j =>
    if be.getLsbD j then
      writeSpan acc .normal (0x10500000 + 64 * beat.toNat + j) [data.extractLsb' (504 - 8 * j) 8]
    else acc) s
def execStashBeat (beat : BitVec 14) (be : BitVec 64) (data : BitVec 512) (s : State) : Host.Outcome State Fault Refusal :=
  .next (if idataReady s then stashBeat beat be data s else s)

/-- The thread that takes an item, among those with an empty slot that may: on a core at Run or Nap before one in Doze, parked in
GETWORK before others, then the lowest number (R365, R436). -/
def fillThread (s : State) (it : Item) : Option ThreadId :=
  let may := threadIds.filter fun t => (s.thr t).slot.isNone && dispatchable s t it
  let up := may.filter fun t => decide ((s.cor t.core).rest ≠ .doze)
  let pool := if up.isEmpty then may else up
  match pool.find? fun t => inGetwork (s.thr t) with
  | some t => some t
  | none => pool.head?

/-- The highest-ranked item of a list (R13). -/
def bestItem (s : State) (its : List Item) : Option Item :=
  its.foldl (fun acc it => match acc with
    | none => some it
    | some b => if outranks s it b then some it else some b) none

/-- An item goes into a thread's slot; the core wakes, and a thread that waits in GETWORK takes it (R365, R437, R182). -/
def intoSlot (id : Nat) (t : ThreadId) (s : State) : State :=
  let s1 := (modItem s id fun x => { x with place := .slot t }).modThr t fun th => { th with slot := some id }
  wake t (wakeForWork t.core s1)

/-- Is an item eligible: queued, with its eligibility cycle come (R13)? -/
def eligible (s : State) (it : Item) : Bool := decide (it.place = .queued ∧ it.eligCyc ≤ s.fetch.cycle)

/-- One fill of a fetch slot: the highest-ranked eligible item that some thread may take (R13, R365). -/
def slotFill (s : State) : State :=
  if fetchRuns s = false then s
  else
    let its := s.fetch.items.filter fun it => eligible s it && (fillThread s it).isSome
    match bestItem s its with
    | none => s
    | some it => match fillThread s it with
      | some t => intoSlot it.id t s
      | none => s
def execSlotFill (s : State) : Host.Outcome State Fault Refusal := .next (slotFill s)

/-- An item in the slot of another thread of the core that is not parked moves to a thread parked in GETWORK (R366). -/
def slotMove (t : ThreadId) (s : State) : State :=
  if fetchRuns s = false ∨ inGetwork (s.thr t) = false ∨ (s.thr t).slot.isSome then s
  else
    let its := s.fetch.items.filter fun it => match it.place with
      | .slot u => decide (u.core = t.core ∧ u ≠ t) && decide (parkCode (s.thr u).pend = 0) && dispatchable s t it
      | _ => false
    match bestItem s its with
    | none => s
    | some it => match it.place with
      | .slot u => intoSlot it.id t (s.modThr u fun th => { th with slot := none })
      | _ => s
def execSlotMove (t : ThreadId) (s : State) : Host.Outcome State Fault Refusal := .next (slotMove t s)

/-- β₀ grows by 1 when its 16 cycles have passed (R372). -/
def execLedgerAdvance (s : State) : Host.Outcome State Fault Refusal :=
  .next (if fetchRuns s ∧ s.fetch.beta < s.fetch.cycle / 16 then { s with fetch := ledgerStep s.fetch } else s)

/-! ### Release (R19 to R23, R374 to R379) -/

/-- The time keeper's time in the comparison cycle of R23; the present time where that cycle has not come before. -/
def baseTime (s : State) (it : Item) : Nat := it.ordered.getD s.now

/-- The core cycle in which an item's record became presentable: its launch time counts, or the cancel that took it away (R19, R376). The
presentation of the record before it in its flow, or the acceptance of the flow's DRAINED token, makes it presentable in its own cycle
(DESIGN CHOICE, notes/assumptions/145.md). -/
def presentCycle (s : State) (it : Item) : Nat :=
  let f := s.flow it.flow
  let ready := if it.place = .ready then it.readyCyc + 4 else it.readyCyc
  let order := if f.free then ready else max ready (max f.lastRelCyc f.drainedCyc)
  max (max order it.lifted) (if it.launch.isSome then reachedAt s it else 0)

/-- Is an item's record a FORWARD record? -/
def forwards (it : Item) : Bool := decide (it.place = .ready ∧ it.action = actForward)

/-- May the record of an item or hole be presented now (R19, R375, R386)? A FORWARD record waits for the end of the burst before it
(R478). -/
def presentable (s : State) (it : Item) : Bool :=
  (!forwards it || s.ports.edata.isEmpty) && decide (it.place = .ready ∨ it.place = .hole) && inOrder s it &&
    (match it.launch with
      | some d => decide (d.val ≤ s.now)
      | none => true)

/-- Does the record of one item go before another's (R376)? -/
def goesBefore (s : State) (a b : Item) : Bool :=
  let x := presentCycle s a
  let y := presentCycle s b
  decide (x < y ∨ (x = y ∧ (a.flow < b.flow ∨ (a.flow = b.flow ∧ a.seq < b.seq))))

/-- The item whose record is presented next. -/
def nextRelease (s : State) : Option Item :=
  (s.fetch.items.filter (presentable s)).foldl (fun acc it => match acc with
    | none => some it
    | some b => if goesBefore s it b then some it else some b) none

/-- LATE of a record presented now (R23). DEDUCED (notes/assumptions/44.md). -/
def isLate (s : State) (it : Item) : Bool :=
  let base : Int := baseTime s it
  let at' : Int := match it.launch with
    | some d => if base < d.val then base else s.now
    | none => s.now
  decide (it.place = .ready) && decide (it.action ≠ actCancelled) && decide (it.deadline + ccUnits s 4 < at')

/-- NODE of a record: the last visit's node; the entry node of a hole and of an item never taken (R377). -/
def recordNode (it : Item) : BitVec 8 :=
  if it.place = .hole ∨ it.taken = false then it.desc0.extractLsb' 0 8 else it.node

/-- The release record of an item (R377). -/
def releaseRec (s : State) (it : Item) (late : Bool) : EgressRec :=
  let d := it.launch.getD (dblOf s.now)
  { drained := false
    c0 := it.flow ++ it.seq ++ recordNode it
    c1 := it.port ++ it.action ++ BitVec.ofBool late ++ it.desc1.extractLsb' 0 35
    c2 := BitVec.ofBool it.launch.isSome ++ d.hi.extractLsb' 0 47
    c3 := d.lo }

/-- The heel writes an item's kept edits into the stash (R16). -/
def writeKept (it : Item) (s : State) : State :=
  it.kept.foldl (fun acc e => writeSpan acc .normal (stashAddr it e.1) [e.2]) s

/-- The heel reads one byte for egress: an uncorrectable or poisoned byte is sent as 0x00, marked and logged (R332). -/
def egressByte (a : Nat) (s : State) : (Byte × Bool) × State :=
  let b := rawByte s .normal a
  let r := readByte s .normal a
  match r.1 with
  | .clear => ((0, false), r.2)
  | .good d => ((d, false), r.2)
  | .ce d => ((d, false), r.2)
  | _ => ((0, true), logUE (byteEntry a b false) r.2)

/-- The bytes of a FORWARD record, with the kept edits applied (R20). -/
def egressBytes (it : Item) (s : State) : List (Byte × Bool) × State :=
  (span (stashAddr it 0) it.len).foldl (fun acc a =>
    let r := egressByte a acc.2
    (acc.1 ++ [r.1], r.2)) ([], writeKept it s)

/-- The beats of a burst: 64 bytes each, and the rest in the last (R478). -/
def egressBeats (bs : List (Byte × Bool)) : List EgressBeat :=
  let n := (bs.length + 63) / 64
  (List.range n).map fun i =>
    let part := (bs.drop (64 * i)).take 64
    { nb := BitVec.ofNat 7 part.length, last := decide (i + 1 = n), data := part.map (·.1), err := part.map (·.2) }

/-- The flow after a release (R360, R375). -/
def flowRelease (f : Flow) (cycle : Nat) : Flow :=
  { f with
    nextr := if f.free then f.nextr else f.nextr + 1
    infl := f.infl - 1
    lastRelCyc := cycle
    state := if f.state = .active ∧ f.infl ≤ 1 then .idle else f.state }

/-- An item's record is presented, and the item leaves the tile (R19, R20, R375, R379). -/
def release (it : Item) (s : State) : State :=
  let late := isLate s it
  let rec' := releaseRec s it late
  let r := if forwards it then egressBytes it s else ([], s)
  let s1 := (dropItem r.2 it.id).setFlow it.flow (flowRelease (s.flow it.flow) s.fetch.cycle)
  let s2 := { s1 with ports := { s1.ports with edesc := some rec', edata := s1.ports.edata ++ egressBeats r.1 } }
  if late then raiseSrc 9 { s2 with heel := { s2.heel with late := true } } else s2

/-- The heel presents the next record (R376). -/
def releaseNext (s : State) : State :=
  if fetchRuns s = false then s
  else match nextRelease s with
    | some it => release it s
    | none => s
def execReleaseRecord (s : State) : Host.Outcome State Fault Refusal := .next (releaseNext s)

/-- Has a LEAVING flow drained (R385, R387)? -/
def hasDrained (f : Flow) : Bool := decide (f.state = .leaving ∧ f.infl = 0 ∧ (f.free ∨ f.nextr = f.leaveAt))

/-- The DRAINED record of a flow; the flow returns to FRESH (R387). -/
def drainedRecord (flow : BitVec 16) (s : State) : State :=
  let f := s.flow flow
  if fetchRuns s ∧ hasDrained f then
    let r : EgressRec := { drained := true, c0 := flow ++ f.leaveAt ++ 0#8, c1 := 0, c2 := 0, c3 := 0 }
    let s1 := s.setFlow flow { f with state := .idle, fresh := true }
    raiseSrc 10 { s1 with
      heel := { s1.heel with drained := true }
      ports := { s1.ports with edesc := some r } }
  else s
def execDrainedRecord (flow : BitVec 16) (s : State) : Host.Outcome State Fault Refusal := .next (drainedRecord flow s)

/-- HEEL.FLOWCMD.RESET: an IDLE flow returns to FRESH (R361). -/
def flowReset (s : State) : State :=
  let f := s.flow s.heel.flowsel
  if f.state = .idle then s.setFlow s.heel.flowsel { f with fresh := true } else s
def execFlowReset (s : State) : Host.Outcome State Fault Refusal := .next (flowReset s)

/-- A current item's visit has lasted HEEL.CTL.STUCK × 1,024 cycles: its core is fenced with REASON HEEL (R388). -/
def execHeelStuck (t : ThreadId) (s : State) : Host.Outcome State Fault Refusal :=
  .next <| match currentItem s t with
    | some it =>
      if fetchRuns s ∧ s.heel.stuck ≠ 0 ∧ s.heel.stuck.toNat * 1024 ≤ it.visitCyc then fenceCore t.core 3 s else s
    | none => s

end Sys2Proof.Machine
end

