-- ==== Sys2Proof/Machine/Reset.lean ====
section
/-! DEFINITION. Resets of every kind, the boot of the tile, the boot ROM's run, OWNER_RESET and the watchdogs (R144, R229, R471,
R480, R483 to R487, R503). -/

namespace Sys2Proof.Machine

/-! ### The profile a boot loads (R442, R445) -/

/-- Cell i of profile p; none where one of its bytes is uncorrectable or poisoned. -/
def profileCell (s : State) (p i : Nat) : Option Cell :=
  match peekSpan s .normal (profileBase p + 6 * i) 6 with
  | .ok bs => some (bytesCell bs)
  | _ => none

/-- The checks of R445 on a profile's 128 cells. -/
def profileGood (p : Nat) (cells : List Cell) : Bool :=
  let c0 := cells.getD 0 0
  let f := profileOf fun i => cells.getD i 0
  decide (c0.extractLsb' 32 16 = 0x9F1E ∧ c0.extractLsb' 28 4 = 1 ∧ (c0.extractLsb' 24 4).toNat = p) &&
    decide ((cells.getD 127 0).extractLsb' 0 32 = crc32cOf ((cells.take 127).flatMap cellBytes)) &&
    decide (f.cores ≠ 0 ∧ 1 ≤ f.threads ∧ f.threads ≤ 8 ∧ f.dthreads ≤ 8)

/-- What reading the 128 cells of a profile leaves (R442, R333). -/
def readsProfile (p : Nat) (s : State) : State := logicReads (profileBase p) 768 s

/-- The profile of an index, if it passes its checks. -/
def loadProfile (s : State) (p : Nat) : Option Profile :=
  match (List.range 128).mapM (profileCell s p) with
  | some cells => if profileGood p cells then some (profileOf fun i => cells.getD i 0) else none
  | none => none

/-! ### Boot (R483, R484, R503) -/

/-- The kinds of R485. -/
def kindPowerOn : BitVec 3 := 0
def kindWakeOff : BitVec 3 := 1
def kindTile : BitVec 3 := 2

/-- V of every byte cleared, D and C as they are (R346). -/
def clearV (m : SMap StoredByte) : SMap StoredByte := smMapWhere 0 (fun _ => true) (fun b => b &&& 0x1FFF) m

/-- A core at boot: a tile reset keeps the comparators, the local program RAM and the bytes of the borrow buffer (R503, R346,
R351). -/
def bootCore (kind : BitVec 3) (p : Profile) (c : CoreId) (old : Core) : Core :=
  let k := Core.boot p c
  if kind = kindTile then
    { k with
      borrow := { k.borrow with buf := old.borrow.buf }
      cmpa := old.cmpa
      cmpb := old.cmpb
      csValid := old.csValid
      csHit := old.csHit
      brkhalt := old.brkhalt
      lprog := old.lprog }
  else { k with borrow := { k.borrow with buf := clearV old.borrow.buf } }

/-- The ECC unit at boot: a tile reset keeps the counts, the logs and their status (R503). -/
def bootEcc (kind : BitVec 3) (p : Profile) (old : Ecc) : Ecc :=
  let e := Ecc.boot p
  if kind = kindTile then
    { e with
      cecnt := old.cecnt
      celog := old.celog
      uelog := old.uelog
      sat := old.sat
      ueovf := old.ueovf
      ceovf := old.ceovf
      poisoned := old.poisoned }
  else e

/-- The keep store at boot: the cell write in progress has completed (R493); a power-on reset clears KS.STATUS (R503). -/
def bootKeep (kind : BitVec 3) (old : KeepCtl) : KeepCtl :=
  if kind = kindPowerOn then KeepCtl.boot else { old with todo := [], done := old.done || !old.todo.isEmpty }

/-- Source 35 at boot: the write in progress sets DONE as it completes, and each setting of DONE raises the source (R323, R493); it pends
until the release of a reset that is held (DESIGN CHOICE, notes/assumptions/121.md). -/
def bootSrc (kind : BitVec 3) (s : State) : SMap Src :=
  if kind ≠ kindPowerOn ∧ (s.ks.todo ≠ [] ∨ (s.resetHeld ∧ (s.src 35).pend)) then [(35, { Src.boot with pend := true })] else []

/-- The storage at boot: the keep-store write in progress completes (R493). A tile reset keeps the rest; otherwise the flash clear
clears V of all but the keep store (R346, R483). -/
def bootMem (kind : BitVec 3) (s : State) : SMap StoredByte :=
  let m := match s.ks.todo with
    | j :: _ => (putStored j.addr j.bytes s).mem
    | [] => s.mem
  if kind = kindTile then m else smMapWhere 0 (fun a => !isKeep a) (fun b => b &&& 0x1FFF) m

/-- PWR.STATUS.LAST at boot (R503). -/
def bootLast (kind : BitVec 3) (s : State) : BitVec 3 :=
  if kind = kindPowerOn then 0 else if kind = kindWakeOff then 5 else s.pwr.last

/-- Run control at boot: only a power-on reset clears ATTACHED and RSTHALT (R458, R503). -/
def bootDebug (kind : BitVec 3) (old : Debug) : Debug :=
  if kind = kindPowerOn then Debug.boot else { Debug.boot with attached := old.attached, rsthalt := old.rsthalt }

/-- The life-cycle logic at boot: STATE from the marks; a tile reset keeps the unlock and the second for which a failed unlock
refuses a challenge (R489, R492, R503), which a power-on reset and a wake from Off end (DESIGN CHOICE, notes/assumptions/134.md). LC_STATE
shows 0b111 while a power-on reset is held (R475). -/
def bootLife (kind : BitVec 3) (isHeld : Bool) (s : State) (marks : BitVec 3) : LifeCycle :=
  let l := { LifeCycle.boot with stateOut := if kind = kindPowerOn ∧ isHeld then 7 else marks }
  if kind = kindTile then { l with unlocked := s.lc.unlocked, blocked := s.lc.blocked } else l

/-- The Whistle port at boot: the link address survives all but a power-on reset (R453), and POLL answers REFUSED (R454). -/
def bootWhistle (kind : BitVec 3) (old : Whistle) : Whistle :=
  if kind = kindPowerOn then Whistle.boot else { Whistle.boot with link := old.link }

/-- The threads whose CAS6 requests a reset of the tile withdraws (R480). -/
def parkedCas6 (s : State) : List ThreadId := threadIds.filter fun t => isCas6 (s.thr t).pend

/-- A reset of tile scope or wider, up to step 5 of R484: every piece of state at the value R503 gives it. `rst` is what
THR.RSTINFO takes; `isHeld` says that the reset is held, so that the boot follows its release.
DESIGN CHOICE (notes/assumptions/55.md). -/
def bootState (kind : BitVec 3) (rst : Cell) (isHeld : Bool) (pins : Pins) (s : State) : State :=
  let mem := bootMem kind s
  let s1 := { s with mem := mem }
  let load := loadProfile s1 pins.prof.toNat
  let p := load.getD fallbackProfile
  { s1 with
    threads := allThreads fun t => Thread.boot p t rst
    cores := allCores fun c => bootCore kind p c (s.cor c)
    sprog := if kind = kindTile then s.sprog else []
    node := pins.node
    pins := pins
    profIdx := pins.prof
    profile := p
    tk := TimeKeeper.boot
    tic := { Tic.boot with src := bootSrc kind s, latches := if kind = kindPowerOn then 0 else s.tic.latches }
    ecc := bootEcc kind p s.ecc
    knl := if kind = kindTile then s.knl else Kennel.boot
    ks := bootKeep kind s.ks
    fab := Fab.boot
    ownq := [.tile]
    ownWait := if kind = kindTile then s.ownWait else none
    fetch := Fetch.boot p
    heel := Heel.boot
    help := Helpers.boot p
    gates := []
    pwr := { Power.boot p load.isNone with last := bootLast kind s }
    grace := p.graceScope.extractLsb' 24 24
    dbg := bootDebug kind s.dbg
    whi := bootWhistle kind s.whi
    lc := bootLife kind isHeld s (lcStateOf s1)
    boot := if isHeld then .held kind else .ackWait kind
    held := []
    ports := { Ports.boot with
      semWdr := parkedCas6 s
      presence := if kind = kindTile then s.dbg.attached && !isHeld else decide (kind = kindWakeOff) && s.whi.presenceDue }
    epoch := s.epoch + 1 }

/-- The reads of the boot: the life-cycle marks and the profile (R442, R489); a reset that is held has not booted yet. -/
def bootReads (isHeld : Bool) (pins : Pins) (s : State) : State :=
  if isHeld then s else readsProfile pins.prof.toNat (logicReads 0xF0000000 72 s)

/-- A reset of tile scope or wider, up to step 5 of R484, with what its reads of the keep store count (R333). -/
def bootTile (kind : BitVec 3) (rst : Cell) (isHeld : Bool) (pins : Pins) (s : State) : State :=
  bootReads isHeld pins (bootState kind rst isHeld pins s)

/-- May the life cycle's state reset the tile through the Whistle port (R488)? -/
def whistleResetAllowed (s : State) : Bool := decide (s.lc.stateOut ≠ 2) || s.lc.unlocked

/-- Has a watchdog's bite come: COUNT at 0 in STAGE BITE, a BITE of 0 only in the tick after the bark (R471)? -/
def biteDue (k : Core) : Bool := decide (k.wdg.stage = .bite ∧ k.wdg.count = 0) && k.wdg.ticked

/-- Has a transition written its last mark (R491)? -/
def lcDue (s : State) : Bool := s.lc.busy && decide (s.lc.phase = .marking) && !keepHas s .lifeCycle

/-- Does a source reset the tile now (R483)? No register write does, and none while a reset as wide or wider is held. -/
def tileResetMay (s : State) (src : ResetSrc) : Bool := !s.resetHeld && match src with
  | .pin => decide (s.pwr.rest ≠ .off)
  | .whistle => whistleResetAllowed s && decide (s.pwr.rest ≠ .off)
  | .bite c => biteDue (s.cor c) && (s.cor c).wdg.scope
  | .register _ => false
  | .lifeCycle => lcDue s

/-- SRC and BY of THR.RSTINFO (R485). -/
def srcCell' (kind : BitVec 3) : ResetSrc → Cell
  | .pin => rstCell kind 0 0
  | .whistle => rstCell kind 1 0
  | .bite c => rstCell kind 2 (BitVec.ofNat 7 c.val)
  | .register t => rstCell kind 3 (BitVec.ofNat 7 t.val)
  | .lifeCycle => rstCell kind 4 0

/-- TILE_RESET (R483). -/
def tileReset (src : ResetSrc) (isHeld : Bool) (pins : Pins) (s : State) : State :=
  if tileResetMay s src then bootTile kindTile (srcCell' kindTile src) isHeld pins s else s
def execTileReset (src : ResetSrc) (held : Bool) (pins : Pins) (s : State) : Host.Outcome State Fault Refusal :=
  .next (tileReset src held pins s)

/-- AON_RST_N falls, or PWR_OK falls without a granted Off (R483). -/
def execPowerOnReset (held : Bool) (pins : Pins) (s : State) : Host.Outcome State Fault Refusal :=
  .next (bootTile kindPowerOn (rstCell kindPowerOn 0 0) held pins s)

/-- A held reset ends: the pins are sampled and the boot begins (R482, R483). -/
def execResetRelease (pins : Pins) (s : State) : Host.Outcome State Fault Refusal :=
  .next <| match s.boot with
    | .held kind => bootTile kind (s.thr 0).rstinfo false pins s
    | _ => s

/-! ### Thread and core resets (R229, R484, R486) -/

/-- THR.RSTINFO of a reset by a register write (R485). One that the Whistle port writes has SRC 1 and BY 0 (DESIGN CHOICE,
notes/assumptions/151.md). -/
def rstBy (kind : BitVec 3) : Agent → Cell
  | .thread u => rstCell kind 3 (BitVec.ofNat 7 u.val)
  | .whistle => rstCell kind 1 0

/-- A reset of the holder releases its sources (R274). -/
def releaseHolds (t : ThreadId) (s : State) : State :=
  { s with tic := { s.tic with
    src := smMapWhere Src.boot (fun _ => true) (fun x => if x.held = some t then { x with held := none } else x) s.tic.src } }

/-- A lodged request of the thread's current item is removed; a tag it holds stays (R190, R389).
DEDUCED (notes/assumptions/64.md). -/
def dropLodged (t : ThreadId) (s : State) : State :=
  match currentItem s t with
  | some it => match it.tag with
    | some (_, .held) => s
    | _ => dropTag s it.id
  | none => s

/-- THREAD_RESET: the steps of R229. -/
def threadReset (ag : Agent) (t : ThreadId) (s : State) : State :=
  if s.boot ≠ .run then s
  else
    let s1 := abandonItem (dropLodged t (discardPend t s)) t 2 true
    let s2 := releaseHolds t (wakeTags (returnSlot s1 t))
    signalOwner (.thread t) (s2.modThr t fun th => th.softReset t (rstBy 4 ag))
def execThreadReset (ag : Agent) (t : ThreadId) (s : State) : Host.Outcome State Fault Refusal := .next (threadReset ag t s)

/-- A core's registers after a core reset (R484, R503): the profile in effect is applied again; the comparators and the program
RAM are kept. -/
def coreAfterReset (p : Profile) (c : CoreId) (cycle : Nat) (old : Core) : Core :=
  { bootCore kindTile p c old with c0 := cycle }

/-- A reset ends a borrow at once, with no copy-back (R318); it clears no valid bit of the buffer's bytes (R346). -/
def Borrow.ended (w : Borrow) : Borrow := { w with active := false, copying := false, back := false }

/-- CORE_RESET: the core's items are handled, its words and stores leave, its borrow ends, and OWNER_RESET is signalled; what follows waits for its
acknowledgement (R390, R484, R486). -/
def coreReset (ag : Agent) (c : CoreId) (s : State) : State :=
  if s.boot ≠ .run then s
  else
    let s1 := wakeTags (clearCore c 3 (dropStores c s))
    let s2 := (coreThreads c).foldl (fun acc t => releaseHolds t acc) s1
    wakeUncore (signalOwner (.core c) (s2.modCor c fun k => { k with inReset := some (rstBy 3 ag), borrow := k.borrow.ended }))

/-- The rest of a core reset: the registers of the core and of its threads, the FENCE bit, and the start of the threads; the interval of the
scratchpad's walker starts afresh where a fence held it (R343, R484). -/
def coreStart (c : CoreId) (rst : Cell) (s : State) : State :=
  let s1 := (coreThreads c).foldl (fun acc t =>
    acc.modThr t fun th => { Thread.boot s.profile t rst with chToggle := th.chToggle }) s
  let s2 := s1.modCor c (coreAfterReset s.profile c s.fetch.cycle)
  if spadGone s c then { s2 with ecc := walkAfresh (· == 2 + c.val) s2.ecc } else s2
def execCoreReset (ag : Agent) (c : CoreId) (s : State) : Host.Outcome State Fault Refusal := .next (coreReset ag c s)

/-! ### The boot ROM's run (R487) -/

/-- A store to DBG.TXD: it fills the cell, or is dropped with TXLOST (R469). -/
def txStore (c : CoreId) (v : Cell) (s : State) : State :=
  s.modCor c fun k => if k.txfull then { k with txlost := true } else { k with txd := v, txfull := true }

/-- The boot block in the bytes of its four cells, if it passes the checks of step 2. -/
def bootBlock (bs : List Byte) : Option BootBlock :=
  let cell := fun i => bytesCell ((bs.drop (6 * i)).take 6)
  let b : BootBlock :=
    { src := ((cell 0).extractLsb' 0 28).toNat
      nwords := ((cell 1).extractLsb' 20 19).toNat
      dest := ((cell 1).extractLsb' 0 20).toNat
      entry := (cell 2).extractLsb' 0 20
      check := (cell 3).extractLsb' 0 32 }
  if (cell 0).extractLsb' 32 16 = 0xB0B7 ∧ (cell 0).extractLsb' 28 4 = 1 ∧ (cell 1).extractLsb' 39 9 = 0 ∧
      (cell 2).extractLsb' 20 28 = 0 ∧ (cell 3).extractLsb' 32 16 = 0 ∧ 1 ≤ b.nwords ∧ 0x10000 ≤ b.dest ∧
      b.dest + b.nwords ≤ 0x90000 then some b
  else none

/-- The copy of the image's halfwords into the shared program store (R487 step 3). -/
def copyImage (dest : Nat) : List (BitVec 16) → State → State
  | [], s => s
  | w :: ws, s => copyImage (dest + 1) ws { s with sprog := smPut sharedKill s.sprog dest (encShared (w.setWidth 14)) }

/-- Bytes read as big-endian halfwords. -/
def halfwords : List Byte → List (BitVec 16)
  | hi :: lo :: rest => (hi ++ lo) :: halfwords rest
  | _ => []

/-- The firmware digest (R489). -/
def digestOk (s : State) (bs : List Byte) : Bool :=
  match peekSpan s .normal 0xF0000060 32 with
  | .ok d => decide (d = sha256Of bs)
  | _ => false

/-- A thread waits in the boot ROM's WFE with no limit (R487). -/
def romPark (t : ThreadId) (s : State) : State :=
  let d : Dbl := { hi := 0x800000000000, lo := 0 }
  (popPush t 0 [d.hi, d.lo] s).modThr t fun th => { th with pend := .wfe d, arch := { th.arch with pc := Config.bootPark } }

/-- The boot thread fails: the code goes to its core's DBG.TXD, and it waits as the other threads of the scope do (R487). -/
def romFail (t : ThreadId) (k : BitVec 4) (s : State) : State :=
  txStore t.core (0x0B0000000000 ||| k.setWidth 48) (romPark t s)

/-- Step 6 for a thread that waits: SEV, at which it goes on at ENTRY (R487). -/
def romCall (entry : WAddr) (s : State) (t : ThreadId) : State :=
  signalEvent t (s.modThr t fun th => match th.pend with
    | .wfe _ => { th with pend := .rom (.called entry) }
    | _ => th)

/-- Step 6 of R487: the waiting threads are signalled, and the boot thread goes on at ENTRY. -/
def romEnter (t : ThreadId) (others : List ThreadId) (entry : WAddr) (s : State) : State :=
  (others.foldl (romCall entry) s).modThr t fun th => { th with pend := .none, arch := { th.arch with pc := entry } }

/-- Steps 4 to 6 of R487, once the image has been copied. -/
def romFinish (t : ThreadId) (others : List ThreadId) (b : BootBlock) (image : List Byte) (s : State) : State :=
  if b.check ≠ crc32cOf image then romFail t 2 s
  else if s.lc.stateOut ≠ 2 then romEnter t others b.entry s
  else if digestOk s image then romEnter t others b.entry (logicReads 0xF0000060 32 s)
  else romFail t 3 (logicReads 0xF0000060 32 s)

/-- The fabric answers a read of the image: its words are copied, and the next are asked for; an error fails with k = 4 (R487 step 3).
An image that leaves host memory fails so too. DESIGN CHOICE (notes/assumptions/54.md). -/
def romAnswer (t : ThreadId) (bs : Option (List Byte)) (s : State) : State :=
  match (s.thr t).pend, bs with
  | .rom (.copies _ _ _ _), none => romFail t 4 s
  | .rom (.copies others b got _), some d =>
    let image := got ++ d
    let s1 := copyImage (b.dest + got.length / 2) (halfwords d) s
    if 2 * b.nwords ≤ image.length then romFinish t others b image s1
    else if romLen b image.length = 0 then romFail t 4 s1
    else romAsk t (s1.modThr t fun th => { th with pend := .rom (.copies others b image false) })
  | _, _ => s

/-- The boot ROM's run over the threads of a scope, lowest first (R487): the others wait, and the boot thread checks the life cycle and
the boot block; with tile scope it then copies the image, and otherwise the threads go on at ENTRY.
DESIGN CHOICE (notes/assumptions/54.md). -/
def romRun (whole : Bool) (ts : List ThreadId) (s0 : State) : State :=
  match ts with
  | [] => s0
  | t :: others =>
    let s := others.foldl (fun acc u => romPark u acc) s0
    if s.lc.stateOut = 4 then romFail t 5 s
    else
      let v := busRead s .normal (span 0xF0001800 24)
      match (if (readExc 0 v.1).isSome then none else bootBlock (readBytes v.1)) with
      | none => romFail t 1 v.2
      | some b =>
        if whole then romAsk t (v.2.modThr t fun th => { th with pend := .rom (.copies others b [] false) })
        else romEnter t others b.entry v.2

/-- The enabled threads that stand at the reset entry after a reset of a kind. -/
def atEntry (s : State) (kind : BitVec 3) (ts : List ThreadId) : List ThreadId :=
  ts.filter fun t => (s.thr t).en && decide ((s.thr t).arch.pc = resetEntry ∧ (s.thr t).rstinfo.extractLsb' 45 3 = kind)

/-- The boot ROM's run over the threads of a boot scope (R487). -/
def romStart (o : OwnScope) (kind : BitVec 3) (s : State) : State :=
  match o with
  | .tile => romRun true (atEntry s kind threadIds) s
  | .core c => if coreUp s c then romRun false (atEntry s 3 (coreThreads c)) s else s
  | .thread t => romRun false (atEntry s 4 [t]) s

/-- The boot ROM runs, where the command says so, and otherwise the sender offers its words; in a debug halt its run waits for the
release (R460, R487). -/
def romOrDefer (o : OwnScope) (kind : BitVec 3) (rom : Bool) (s : State) : State :=
  if !rom then s
  else if s.frozen then { s with dbg := { s.dbg with romDue := s.dbg.romDue ++ [(o, kind)] } }
  else romStart o kind s

/-- The runs of the boot ROM that a halt held back. -/
def romReleased (s : State) : State :=
  s.dbg.romDue.foldl (fun acc x => romStart x.1 x.2 acc) { s with dbg := { s.dbg with romDue := [] } }

/-! ### OWNER_RESET (R480) -/

/-- The scope code and the first owner ID of a pulse (R480). -/
def ownPulse (s : State) : OwnScope → BitVec 2 × BitVec 17
  | .thread t => (0, s.node ++ BitVec.ofNat 7 t.val)
  | .core c => (1, s.node ++ BitVec.ofNat 7 (8 * c.val))
  | .tile => (2, s.node ++ 0#7)

/-- The next OWNER_RESET pulse, once the one before it has been acknowledged and no pin holds the tile in reset. -/
def ownerReset (s : State) : State :=
  if s.resetHeld then s
  else match s.ownWait, s.ownq with
  | none, o :: rest => { s with ownWait := some o, ownq := rest, ports := { s.ports with ownReset := some (ownPulse s o) } }
  | _, _ => s
def execOwnerReset (s : State) : Host.Outcome State Fault Refusal := .next (ownerReset s)

/-- The wake from Off completes: source 38 rises (R441). -/
def wakeSource (kind : BitVec 3) (s : State) : State := if kind = kindWakeOff then raiseSrc 38 s else s

/-- Step 6 of R484: the tile runs, or with RSTHALT and an attached debugger stands halted with CAUSE 3 (R459, R460). -/
def tileStart (kind : BitVec 3) (rom : Bool) (s : State) : State :=
  let s1 := wakeSource kind { s with boot := .run }
  romOrDefer .tile kind rom
    (if s.dbg.rsthalt ∧ s.dbg.attached then { s1 with dbg := { s1.dbg with halted := true, cause := 3, thread := 0, comp := 0 } }
     else s1)

/-- What an acknowledged scope goes on with: a tile or core that waited starts, unless a further reset of it is still to be signalled
(R493), and the boot ROM runs. -/
def ownerDone (o : OwnScope) (rom : Bool) (s : State) : State :=
  match o, s.boot with
  | .tile, .ackWait kind => if s.ownq.contains .tile then s else tileStart kind rom s
  | .core c, .run =>
    if s.ownq.contains (.core c) then s
    else match (s.cor c).inReset with
      | some rst => romOrDefer (.core c) 3 rom (coreStart c rst s)
      | none => s
  | .thread t, .run => romOrDefer (.thread t) 4 rom s
  | _, _ => s

/-- OWNER_RESET_ACK: the scope's semaphores are released, and its threads' requests may go on (R480, R484). -/
def ownerAck (rom : Bool) (s : State) : State :=
  match s.ownWait with
  | none => s
  | some o => resumeBlocks (ownerDone o rom { s with ownWait := none })

/-! ### Watchdogs (R471, R472) -/

def modWdg (c : CoreId) (f : Wdg → Wdg) (s : State) : State := s.modCor c fun k => { k with wdg := f k.wdg }

/-- May a writer at a level kick a core's watchdog (R472)? DEDUCED (notes/assumptions/17.md). -/
def kickAllowed (ag : Agent) (l : Level) (c : CoreId) : Bool :=
  match ag with
  | .whistle => true
  | .thread u => decide (l = .M) || (decide (l = .S) && decide (u.core = c))

/-- The level of a writer: the Whistle port has M's rights (R455). -/
def agentLevel (s : State) : Agent → Level
  | .whistle => .M
  | .thread u => curLevel s u

/-- WDG.CTL.KICK (R471, R472). -/
def watchdogKick (ag : Agent) (l : Level) (c : CoreId) (s : State) : State :=
  if kickAllowed ag l c then modWdg c Wdg.kicked s else s
def execWatchdogKick (ag : Agent) (c : CoreId) (s : State) : Host.Outcome State Fault Refusal :=
  .next (watchdogKick ag (agentLevel s ag) c s)

/-- A write of WDG.CFG, which kicks (R471). -/
def watchdogConfigure (c : CoreId) (v : Cell) (s : State) : State :=
  modWdg c (fun w => Wdg.kicked { w with bark := v.extractLsb' 24 24, bite := v.extractLsb' 0 24 }) s
def execWatchdogConfigure (c : CoreId) (v : Cell) (s : State) : Host.Outcome State Fault Refusal :=
  .next (watchdogConfigure c v s)

/-- COUNT has reached 0 in STAGE BARK: source 16 + c, and the count to the bite (R471). -/
def watchdogBark (c : CoreId) (s : State) : State :=
  let w := (s.cor c).wdg
  if w.stage = .bark ∧ w.count = 0 then
    raiseSrc (16 + c.val) (modWdg c (fun x => { x with stage := .bite, count := x.bite, ticked := false }) s)
  else s
def execWatchdogBark (c : CoreId) (s : State) : Host.Outcome State Fault Refusal := .next (watchdogBark c s)

/-- COUNT has reached 0 in STAGE BITE: a fence with REASON BITE, or a tile reset, which samples the pins
(R471, R484, R485). -/
def watchdogBite (c : CoreId) (pins : Pins) (s : State) : State :=
  if biteDue (s.cor c) then
    (if (s.cor c).wdg.scope then tileReset (.bite c) false pins s
     else fenceCore c 2 (modWdg c (fun x => { x with stage := .off }) s))
  else s
def execWatchdogBite (c : CoreId) (s : State) (pins : Pins := { node := 0, prof := 0 }) :
    Host.Outcome State Fault Refusal :=
  .next (watchdogBite c pins s)

end Sys2Proof.Machine
end

