-- ==== Sys2Proof/Machine/Power.lean ====
section
/-! DEFINITION. Rest levels, the power handshake, helper power and commanded profile loads (chapter 15). -/

namespace Sys2Proof.Machine

/-! ### Choosing a level (R428 to R434) -/

/-- Does the power manager decide: the tile runs, no debug halt, no commanded load (R446, R447)? -/
def powerDecides (s : State) : Bool := decide (s.boot = .run) && !s.frozen && !s.pwr.loading

/-- Nanoseconds in the unit of time of R47. -/
def nsUnits (n : Nat) : Int := n * 65536

/-- Exit figures in ns (R426). -/
def exitNap : Nat := 40
def exitDoze : Nat := 2000
def exitSleep : Nat := 30000
def exitOff : Nat := 1500000

/-- Is a wake class armed (R432)? -/
def classArmed (s : State) (k : BitVec 2) : Bool :=
  let live := fun t => (s.thr t).en && !(s.thr t).stopped
  (s.tic.src.any fun e => decide (e.2.wclass = k ∧ e.2.prio ≠ 0) && threadIds.any fun t => inTarget s e.1 t && live t) ||
    (decide (k = s.pwr.descwc) && s.fetch.nodes.any fun e => e.2.en)

/-- Does the tolerance of every armed class allow an exit figure (R433)? -/
def tolerated (s : State) (ns : Nat) : Bool :=
  (List.range 4).all fun k => !classArmed s (BitVec.ofNat 2 k) || decide (ns ≤ (s.pwr.tol.getD k 0).toNat)

/-- The time limit of a parked wait (R170). -/
def pendLimit : Pend → Option Dbl
  | .waitt d => some d
  | .wfe d => some d
  | .getwork d => some d
  | .tag _ d => some d
  | _ => none

/-- The earlier of two limits. -/
def earlier (a b : Option Int) : Option Int :=
  match a, b with
  | some x, some y => some (min x y)
  | some x, none => some x
  | none, y => y

/-- τ of a core: the earliest limit of its threads' parked waits, those that Doze withdrew included (R434). -/
def coreTau (s : State) (c : CoreId) : Option Int :=
  (coreThreads c).foldl (fun acc t => match pendLimit (s.thr t).pend with
    | some d => if d.never then acc else earlier acc (some d.val)
    | none => acc) (s.cor c).tau

/-- τ of the tile: its cores' limits and the launch times of ready items (R434). -/
def tileTau (s : State) : Option Int :=
  s.fetch.items.foldl (fun acc it => if it.place = .ready then earlier acc (it.launch.map Dbl.val) else acc)
    (coreIds.foldl (fun acc c => earlier acc (coreTau s c)) none)

/-- The time test of R434: now + entry + exit ≤ τ. -/
def timeTest (s : State) (tau : Option Int) (cost : Int) : Bool := tau.all fun x => decide ((s.now : Int) + cost ≤ x)

/-! ### Cores (R428, R437) -/

/-- Does a recognisable source or a machine check call a thread out of its rest (R437)? -/
def threadCalled (s : State) (t : ThreadId) : Bool :=
  let th := s.thr t
  th.en && !th.stopped &&
    ((bestSource s (recognisable s t th.arch.ipl th.arch.level)).isSome ||
      (s.tic.mcPend && decide (mcTarget s = some t) && !th.arch.mcact))

/-- Does a wake event of R437 stand for a core: a thread is called, or an event latch has been set, a slot has been filled or a tag
has been granted since the core's latest cycle at Run? What stood then bars no rest (R428). DEDUCED (notes/assumptions/99.md). -/
def coreCalled (s : State) (c : CoreId) : Bool :=
  (coreThreads c).any (threadCalled s) || (standingCalls s c).any fun x => !(s.cor c).seen.contains x

/-- The conditions of a core's Nap, which have held for NAPDLY cycles, with no wake event that would win (R428, R429, R433, R434,
R447). -/
def mayNap (s : State) (c : CoreId) : Bool :=
  powerDecides s && decide (s.pwr.rest = .run) && napReady s c && !coreCalled s c && decide (s.pwr.napdly.toNat ≤ (s.cor c).idle) && s.pwr.napen &&
    tolerated s exitNap && timeTest s (coreTau s c) ((ccUnits s 16 : Nat) + nsUnits exitNap)

/-- Is no enabled core deterministic (R429)? -/
def noneDet (s : State) : Bool := s.cores.toList.all fun k => !k.enabled || (!k.det && !k.act)

/-- Does every enabled core rest at Nap or deeper, with no exit in progress (R426)? -/
def allRest (s : State) : Bool :=
  s.cores.toList.all fun k => !k.enabled || (decide (k.rest ≠ .run) && !k.waking)

/-- Does a set latch wake the tile: its source's class is armed (R432, R447)? -/
def latchWakes (s : State) : Bool :=
  (List.range 512).any fun i => s.tic.latches.getLsbD i && classArmed s (s.src i).wclass

/-- Does a wake event stand, for a core that rests or for the tile, or does an exit run (R437, R447)? The latches that a wake from Off
has left wake no tile at Run (R270). -/
def wakeStands (s : State) : Bool :=
  s.pwr.waking || (latchWakes s && decide (s.pwr.rest ≠ .run)) || s.cores.toList.any (·.waking) ||
    coreIds.any fun c => decide ((s.cor c).rest ≠ .run) && coreCalled s c

/-- The conditions of the uncore's Nap that are the cores' and the register's (R426, R429, R433). -/
def napHolds (s : State) : Bool := allRest s && noneDet s && s.pwr.napen

/-- May the uncore nap: every enabled core naps or dozes, no request is open and no wake event stands, and the level is enabled and meets
the tests of tolerance and time (R426, R433, R434, R447)? -/
def mayAskNap (s : State) : Bool :=
  powerDecides s && napHolds s && decide (s.pwr.rest = .run ∧ s.pwr.req = none) && !wakeStands s && tolerated s exitNap &&
    timeTest s (tileTau s) ((ccUnits s 16 : Nat) + nsUnits exitNap)

/-- With every enabled core at Nap or deeper the tile asks for the uncore's Nap (R426, R439, R458).
DEDUCED (notes/assumptions/58.md). -/
def askNap (s : State) : State := if mayAskNap s then { s with pwr := { s.pwr with req := some .nap } } else s

/-- CORE_NAP (R428). For a core that rests already, only the uncore's Nap is decided again: PWR_WAKE or a descriptor may have
ended it (R433, R437). -/
def coreNap (c : CoreId) (s : State) : State :=
  if mayNap s c then askNap (s.modCor c fun k => { k with rest := .nap, idle := 0, rested := 0 })
  else if (s.cor c).rest ≠ .run then askNap s
  else s
def execCoreNap (c : CoreId) (s : State) : Host.Outcome State Fault Refusal := .next (coreNap c s)

/-- The further Doze conditions, after a nap of DOZEDLY × 64 cycles, with no wake event that would win (R428, R429, R447). -/
def mayDoze (s : State) (c : CoreId) : Bool :=
  let k := s.cor c
  powerDecides s && decide (s.pwr.rest = .run ∨ s.pwr.rest = .nap) && decide (k.rest = .nap) && !k.waking && !coreCalled s c && s.pwr.dozeen &&
    !k.det && !k.act && decide (s.pwr.dozedly.toNat * 64 ≤ k.rested) &&
    (coreThreads c).all (fun t => decide (parkCode (s.thr t).pend ≠ 5) && (s.thr t).slot.isNone) && !k.borrow.active &&
    tolerated s exitDoze && timeTest s (coreTau s c) ((ccUnits s 400 : Nat) + nsUnits exitDoze)

/-- Spill every resident cell of a thread (R428 step 2). -/
def spillAll (t : ThreadId) (s : State) : State :=
  [Level.T, Level.S, Level.M].foldl (fun acc l =>
    [false, true].foldl (fun acc' rs => spillMany t l rs (acc'.stk t l rs).res.length acc') acc) s

/-- CORE_DOZE: waits withdrawn, cells spilled, caches and predictors invalidated, the core gated (R428). -/
def coreDoze (c : CoreId) (s : State) : State :=
  if mayDoze s c then
    let tau := coreTau s c
    let s1 := (coreThreads c).foldl (fun acc t =>
      (spillAll t (discardPend t acc)).modThr t fun th => { th with retPred := [] }) s
    askNap (s1.modCor c fun k => { k with rest := .doze, tau := tau, dlines := [], dfills := [], ilines := [], btb := [], btbMark := [] })
  else s
def execCoreDoze (c : CoreId) (s : State) : Host.Outcome State Fault Refusal := .next (coreDoze c s)

/-- A resting core starts its exit. -/
def startExit (c : CoreId) (s : State) : State := wakeUncore (s.modCor c fun k => { k with waking := true })

/-- CORE_WAKE: one of the wake events of R437 stands. -/
def coreWake (c : CoreId) (s : State) : State :=
  if (s.cor c).rest ≠ .run ∧ s.frozen = false ∧ coreCalled s c then startExit c s else s
def execCoreWake (c : CoreId) (s : State) : Host.Outcome State Fault Refusal := .next (coreWake c s)

/-! ### The tile -/

/-- One tick of the always-on clock (R425). -/
def tickUnits : Int := 32000000

/-- Has the time come at which an exit of some nanoseconds has to start for a limit (R434)? -/
def exitDue (s : State) (tau : Option Int) (ns : Nat) (slack : Int) : Bool :=
  tau.any fun x => decide (x - nsUnits ns - slack ≤ (s.now : Int))

/-- TIMED_WAKE of a core, or (none) of the tile (R434). No time limit wakes a tile from Off, which keeps no timebase (R425, R431; DESIGN
CHOICE, notes/assumptions/147.md). -/
def timedWake (who : Option CoreId) (s : State) : State :=
  if s.frozen then s
  else match who with
    | some c =>
      let k := s.cor c
      let ns := if k.rest = .doze then exitDoze else exitNap
      if k.rest ≠ .run ∧ exitDue s (coreTau s c) ns 0 then startExit c s else s
    | none =>
      if (s.pwr.rest = .sleep ∧ exitDue s (tileTau s) exitSleep tickUnits) ∨
          (s.pwr.rest = .nap ∧ exitDue s (tileTau s) exitNap 0) then
        { s with pwr := { s.pwr with waking := true, req := none } }
      else s
def execTimedWake (who : Option CoreId) (s : State) : Host.Outcome State Fault Refusal := .next (timedWake who s)

/-- The conditions of Sleep that R430 lists, with those of R429. -/
def sleepHolds (s : State) : Bool :=
  s.pwr.sleepen && s.cores.toList.all (fun k => !k.borrow.active &&
      (!k.enabled || (decide (k.rest = .doze) && !k.waking && !k.det && !k.act))) &&
    s.fetch.items.isEmpty && keepFree s && !s.ecc.clearBusy

/-- May the tile ask for Sleep (R429, R430, R433, R434, R447)? With a debugger attached Sleep is emulated (R458).
DEDUCED (notes/assumptions/60.md). -/
def maySleep (s : State) : Bool :=
  powerDecides s && decide (s.pwr.rest = .run ∨ s.pwr.rest = .nap) && !wakeStands s && sleepHolds s && tolerated s exitSleep &&
    timeTest s (tileTau s) (nsUnits (10000 + exitSleep))

/-- TILE_SLEEP: the tile asks the host for Sleep (R430, R439). -/
def tileSleep (s : State) : State := if maySleep s then { s with pwr := { s.pwr with req := some .sleep } } else s
def execTileSleep (s : State) : Host.Outcome State Fault Refusal := .next (tileSleep s)

/-- The conditions of Off (R431, R433, R434, R447). -/
def mayOff (s : State) : Bool :=
  powerDecides s && decide (s.pwr.rest = .sleep) && !wakeStands s && s.pwr.offen && tolerated s exitOff &&
    timeTest s (tileTau s) (nsUnits (50000 + exitOff))

/-- TILE_OFF: the tile asks for Off; an emulated Off is reported in LAST and not requested (R431, R458). -/
def tileOff (s : State) : State :=
  if mayOff s = false then s
  else if s.dbg.attached then { s with pwr := { s.pwr with last := 5 } }
  else { s with pwr := { s.pwr with req := some .off } }
def execTileOff (s : State) : Host.Outcome State Fault Refusal := .next (tileOff s)

/-- Every helper class is off in Sleep and Off (R438); in Sleep it keeps its key slots, ternary entries and recovery streams (DESIGN CHOICE,
notes/assumptions/129.md). -/
def helpersDown (s : State) : State :=
  if s.dbg.attached then s else { s with help := { s.help with ready := 0 } }

/-- The ports of a tile that is Off: every output outside the always-on domain is clamped (R475). -/
def offPorts (p : Ports) : Ports := { Ports.boot with whistle := p.whistle, presence := p.presence, rdata := p.rdata }

/-- PWR_LEVEL: the level asked for, or the level of the tile (R439, R441). -/
def pwrLevelOut (s : State) : BitVec 3 :=
  match s.pwr.req.getD s.pwr.rest with
  | .run => 0
  | .nap => 2
  | .sleep => 4
  | .off => 5

/-- PWR_REQ (R439). -/
def pwrReqOut (s : State) : Bool := s.pwr.req.isSome

/-- PWR_ACK: the host grants the level asked for (R439). A wake event wins, and the request is withdrawn; in a debug halt no level is
entered, and the grant stands until the release; an entry waits while a condition of its level no longer holds (R429, R430), as Off does
for a keep-store write (R447). The kennel loses its contents in Off (R311). -/
def pwrAck (s : State) : State :=
  if s.frozen then { s with held := s.held ++ [.pwrAck] }
  else if wakeStands s then { s with pwr := { s.pwr with req := none } }
  else match s.pwr.req with
  | some .nap => if napHolds s then { s with pwr := { s.pwr with req := none, rest := .nap, last := 2 } } else s
  | some .sleep => if sleepHolds s then helpersDown { s with pwr := { s.pwr with req := none, rest := .sleep, last := 4 } } else s
  | some .off =>
    if keepFree s then
      { s with
        pwr := { s.pwr with req := none, rest := .off, last := 5 }
        mem := s.mem.filter fun e => !isKennel e.1
        ports := offPorts s.ports }
    else s
  | _ => s
def execPwrAck (s : State) : Host.Outcome State Fault Refusal := .next (pwrAck s)

/-- PWR_WAKE rises: HOSTWAKE, and a wake from Nap, Sleep or Off (R439). -/
def pwrWake (s : State) : State :=
  let p := { s.pwr with hostwake := true, req := none }
  { s with pwr := { p with waking := p.waking || decide (p.rest ≠ .run) } }
def execPwrWake (s : State) : Host.Outcome State Fault Refusal := .next (pwrWake s)

/-- The TIC's clock restarts: each set latch sets PEND and clears (R270). -/
def drainLatches (s : State) : State :=
  (List.range 512).foldl (fun acc i =>
    if s.tic.latches.getLsbD i then acc.setSrc i { acc.src i with pend := true } else acc)
    { s with tic := { s.tic with latches := 0 } }

/-- The uncore and the tile run again: the latches set PEND, the helpers come back, and after Sleep source 38 rises and the walkers' intervals
start afresh (R270, R343, R435, R438, R441). -/
def tileRuns (s : State) : State :=
  let s1 := { s with
    pwr := { s.pwr with rest := .run, waking := false, req := none }
    whi := { s.whi with presenceDue := false }
    ports := { s.ports with presence := s.ports.presence || s.whi.presenceDue } }
  let s2 := drainLatches s1
  if s.pwr.rest = .sleep then
    raiseSrc 38 { s2 with
      help := { s2.help with ready := s2.help.ready ||| ~~~s2.help.off }
      tk := { s2.tk with prev1 := s2.now, prev2 := s2.now }
      ecc := if s.pllStopped then walkAfresh (fun _ => true) s2.ecc else s2.ecc }
  else s2

/-- The exit of a core ends: its threads test their waits, or after Doze execute them again, and the interval of its scratchpad's walker
starts afresh (R343, R426, R428). -/
def coreRuns (c : CoreId) (s : State) : State :=
  let s0 := s.modCor c fun k => { k with rest := .run, waking := false, tau := none }
  let s1 := if spadGone s c then { s0 with ecc := walkAfresh (· == 2 + c.val) s0.ecc } else s0
  (coreThreads c).foldl (fun acc t => wake t acc) s1

/-- WAKE_COMPLETED of a core, or (none) of the tile. A core's exit ends only once the tile has left Sleep; a debug halt leaves
every level as it is (R426, R447). -/
def wakeCompleted (who : Option CoreId) (s : State) : State :=
  if s.frozen then s
  else match who with
    | some c =>
      if (s.cor c).waking ∧ (s.pwr.rest = .run ∨ s.pwr.rest = .nap) then
        coreRuns c (if s.pwr.rest = .nap then tileRuns s else s)
      else s
    | none =>
      if (s.pwr.rest = .nap ∨ s.pwr.rest = .sleep) ∧ (s.pwr.waking ∨ latchWakes s) then tileRuns s else s

/-- What wakes a tile that is Off: an always-on latch of an armed class, PWR_WAKE or a break (R432, R439, R450). -/
def offCalled (s : State) : Bool := latchWakes s || s.pwr.waking || s.whi.presenceDue

/-- The tile wakes from Off (R431, R432). -/
def execWakeFromOff (pins : Pins) (s : State) : Host.Outcome State Fault Refusal :=
  .next (if s.pwr.rest = .off ∧ offCalled s then bootTile kindWakeOff (rstCell kindWakeOff 0 0) false pins s else s)

/-! ### Helper power (R401, R438) -/

/-- HELPER_OFF_COMMAND: OFF[i] is set. -/
def execHelperOffCommand (i : Fin 4) (s : State) : Host.Outcome State Fault Refusal :=
  .next { s with help := { s.help with off := s.help.off ||| (1#4 <<< i.val) } }

/-- HELPER_ON_COMMAND: OFF[i] is cleared. -/
def execHelperOnCommand (i : Fin 4) (s : State) : Host.Outcome State Fault Refusal :=
  .next { s with help := { s.help with off := s.help.off &&& ~~~(1#4 <<< i.val) } }

/-- Has a class a request queued or in flight (R401)? -/
def helperBusy (s : State) (i : Nat) : Bool := s.threads.toList.any fun th => match th.pend with
  | .helper k _ => decide (k.cls = i)
  | _ => false

/-- Does a request of a class wait: for an instance, or for its stream (R395, R415)? -/
def helperQueues (s : State) (i : Nat) : Bool := threadIds.any fun t => match (s.thr t).pend with
  | .helper k _ => decide (k.cls = i) && (queuedFor s t i || (seqStream s t).any fun st => seqWaits s st t)
  | _ => false

/-- HELPER_POWER_OFF: a class held off has no request left, and its HELPERS bit falls. `delivered`: the operations that are under way
have delivered their results, so that their words are all that is left of them, and they retire with the class off (R61, R419; DESIGN
CHOICE, notes/assumptions/29.md). A debug halt holds it back (R460). A class that is off keeps its key slots, ternary entries and recovery
streams (R438; DESIGN CHOICE, notes/assumptions/129.md). -/
def helperPowerOff (i : Fin 4) (s : State) (delivered : Bool) : State :=
  if s.frozen = false ∧ s.help.off.getLsbD i.val ∧ (if delivered then helperQueues s i.val else helperBusy s i.val) = false then
    { s with help := { s.help with
        ready := s.help.ready &&& ~~~(1#4 <<< i.val)
        reqs := if delivered then s.help.reqs.filter fun r => decide (r.cls ≠ i.val) else s.help.reqs } }
  else s
def execHelperPowerOff (i : Fin 4) (s : State) (delivered : Bool := false) : Host.Outcome State Fault Refusal :=
  .next (helperPowerOff i s delivered)

/-- HELPER_READY: a class powered up is ready, and its HELPERS bit rises; the helpers' clock runs with the uncore's and stands in a debug
halt (R460). -/
def helperReady (i : Fin 4) (s : State) : State :=
  if s.frozen ∨ s.help.off.getLsbD i.val ∨ uncoreRuns s = false then s
  else { s with help := { s.help with ready := s.help.ready ||| (1#4 <<< i.val) } }
def execHelperReady (i : Fin 4) (s : State) : Host.Outcome State Fault Refusal := .next (helperReady i s)

/-! ### Commanded profile loads (R446) -/

/-- Would a profile disable a thread that step 2 of R446 protects? -/
def loadDisturbs (s : State) (p : Profile) : Bool :=
  threadIds.any fun t => let th := s.thr t
    th.en && !p.threadOn t && th.cur.isSome && decide (parkCode th.pend ≠ 3) && !th.stopped

def loadRefused (s : State) : State := { s with pwr := { s.pwr with refused := true } }

/-- A write of GO to PWR.PROFCMD: steps 1 to 3 of R446. It ends an entry into Sleep (R447). -/
def profileLoadCommand (sel : BitVec 2) (s : State) : State :=
  let s0 := readsProfile sel.toNat s
  let s1 := { s0 with pwr := { s0.pwr with sel := sel, req := none } }
  match loadProfile s sel.toNat with
    | none => loadRefused { s1 with pwr := { s1.pwr with proferr := true } }
    | some p =>
      if s.pwr.loading ∨ loadDisturbs s p then loadRefused s1
      else
        let s2 := { s1 with pwr := { s1.pwr with loading := true, load := some (sel, p) } }
        coreIds.foldl (fun acc c => if (acc.cor c).rest = .run then acc else startExit c acc) s2
def execProfileLoadCommand (sel : BitVec 2) (s : State) : Host.Outcome State Fault Refusal := .next (profileLoadCommand sel s)

/-- Has a core quiesced: no unretired word but parked waits, and an empty store buffer (R225)? -/
def quiesced (s : State) (c : CoreId) : Bool :=
  (s.cor c).sb.isEmpty && (coreThreads c).all fun t =>
    decide ((s.thr t).pend = .none) || decide (parkCode (s.thr t).pend ≠ 0)

/-- The core fields of cells 1, 6, 7, 13, 14 and 17 (R442). A write of WDG.CFG kicks (R471). A borrow holds off the switch to
deterministic mode, which the core then goes on with (R315). -/
def loadCore (p : Profile) (c : CoreId) (cycle : Nat) (k : Core) : Core :=
  let b := Core.boot p c
  let barred := b.det && !k.act && k.borrow.active
  { k with
    enabled := b.enabled
    det := b.det
    act := b.det && !barred
    c0 := if b.det && !k.act && !barred then cycle else k.c0
    switching := barred
    rrlen := b.rrlen
    xfloor := b.xfloor
    leashM := b.leashM
    leashS := b.leashS
    leashT := b.leashT
    leashTrap := b.leashTrap
    wdg := b.wdg }

/-- The fields of cells 1 to 14 and 17 are written (R446 step 4). A thread that the load disables stays parked in the wait it is in (DESIGN
CHOICE, notes/assumptions/130.md). -/
def applyProfile (sel : BitVec 2) (p : Profile) (s : State) : State :=
  let gone := threadIds.filter fun t => (s.thr t).en && !p.threadOn t
  let s1 := gone.foldl (fun acc t => returnSlot acc t) s
  let e := Ecc.boot p
  let f := Fetch.boot p
  let h := Helpers.boot p
  let w := Power.boot p false
  { s1 with
    threads := allThreads fun t => { s1.thr t with en := p.threadOn t }
    cores := allCores fun c => loadCore p c s.fetch.cycle (s1.cor c)
    profile := p
    profIdx := sel
    ecc := { scrubControl e.rate e.enSp e.enKn e.enSh s1.ecc with legacy := e.legacy }
    fetch := { s1.fetch with admitOn := f.admitOn, xshare := f.xshare }
    help := { s1.help with chto := h.chto, detres := h.detres }
    grace := p.graceScope.extractLsb' 24 24
    pwr := { s1.pwr with
      dozedly := w.dozedly
      napdly := w.napdly
      descwc := w.descwc
      offen := w.offen
      sleepen := w.sleepen
      dozeen := w.dozeen
      napen := w.napen
      tol := w.tol
      loading := false
      load := none } }

/-- PROFILE_LOAD_COMPLETE: once every core is awake and has quiesced (R446 steps 3 to 6).
DEDUCED (notes/assumptions/61.md). -/
def profileLoadComplete (s : State) : State :=
  match s.pwr.load with
  | some (sel, p) =>
    if s.frozen = false ∧ s.pwr.rest = .run ∧ (coreIds.all fun c => decide ((s.cor c).rest = .run) && !(s.cor c).waking && quiesced s c) then
      wakeAll (applyProfile sel p s)
    else s
  | none => s
def execProfileLoadComplete (s : State) : Host.Outcome State Fault Refusal := .next (profileLoadComplete s)

end Sys2Proof.Machine
end

