-- ==== Sys2Proof/Machine/Respond.lean ====
section
/-! DEFINITION. Answers from outside: the fabric's and the semaphore unit's responses, their timeouts, the answers held through a
debug halt or a core's rest, and the end of a wake (R125 to R127, R140, R141, R157, R460, R479, R480). -/

namespace Sys2Proof.Machine

/-- The bus error FABRIC at an address (R140, R157, R479). -/
def excFabric (a : BitVec 36) : Exc := { cause := 3, sub := 4, addr := a }

/-- An answer that arrives while its thread may not go on is accepted and held (R460). DEDUCED (notes/assumptions/35.md). -/
def holdAnswer (i : Instr) (s : State) : State := { s with held := s.held ++ [i] }

/-! ### Semaphore unit (R140, R141) -/

/-- A CAS6 whose cell now holds new updates the line of its core that holds the cell (R140, R307): OK and ABANDONED. -/
def cas6Line (t : ThreadId) (st : BitVec 3) (s : State) : State :=
  match curTop s t false 3 with
  | a :: new :: _ => if st = 0 ∨ st = 3 then lineUpdate t.core a.val.toNat (cellBytes new.val) s else s
  | _ => s

/-- A CAS6 whose request is over ends with a status and old; status on top (R140). -/
def cas6Done (t : ThreadId) (st : BitVec 3) (old : Cell) (s : State) : WRes :=
  match ensureCur t false 3 s with
  | some s1 => .next (popPush t 3 [st.setWidth 48, old] (cas6Line t st s1))
  | none => .hold s

/-- The request of a thread's CAS6 is over, and nothing of the word is in flight. -/
def cas6Over (t : ThreadId) (s : State) : State :=
  { s.modThr t fun th => { th with pend := .none } with ports := clearSemReq t s.ports }

/-- The comparators that match a CAS6 by the time it reaches retirement (R467). -/
def cas6Hits (s : State) (t : ThreadId) (ea : BitVec 36) : BitVec 8 :=
  pcHits s t ||| dataHits s t true ea.toNat 6 ||| dataHits s t false ea.toNat 6

/-- A CAS6 reaches retirement with its outcome (R140, R215, R467). -/
def cas6Ends (t : ThreadId) (ea : BitVec 36) (s : State) (r : State → WRes) : State :=
  atRetirement t (cas6Hits s t ea) (cas6Over t s) (r (cas6Over t s))

/-- A response of the semaphore unit, which shows that the unit has taken the request. One that arrives while the core rests wakes it
(R437). -/
def semAnswer (t : ThreadId) (old : Cell) (st : BitVec 3) (s : State) : State :=
  match (s.thr t).pend with
  | .cas6 ea _ =>
    if mayWake s t = false then
      (let s1 := holdAnswer (.semResponse t old st) s
       if (s.cor t.core).rest ≠ .run ∧ s.frozen = false then startExit t.core s1 else s1)
    else if st = 0 ∨ st = 1 ∨ st = 3 then cas6Ends t ea s (cas6Done t st old)
    else if st = 4 then cas6Ends t ea s (cas6Done t st 0)
    else cas6Ends t ea s (.trap (excFabric ea))
  | _ => s
def execSemResponse (t : ThreadId) (old : Cell) (st : BitVec 3) (s : State) : Host.Outcome State Fault Refusal :=
  .next (semAnswer t old st s)

/-- Is a response of the semaphore unit held for a thread? A grant wins over the timeout (R141). -/
def semHeld (s : State) (t : ThreadId) : Bool := s.held.any fun i => match i with
  | .semResponse u _ _ => decide (u = t)
  | _ => false

/-- CAS6_TIMEOUT: THR.SEMCTL.TIMEOUT cycles have passed; the request is withdrawn with status TIMEOUT (R141). While
the thread's core naps or dozes the count runs on, wakes nothing, and ends the wait once the core has woken (DESIGN CHOICE,
notes/assumptions/93.md). A request that the unit has taken and not stalled ends so too (DESIGN CHOICE, notes/assumptions/135.md). -/
def cas6Timeout (t : ThreadId) (s : State) : State :=
  match mayWake s t, (s.thr t).pend with
  | true, .cas6 ea (.taken (some 0) _) => if semHeld s t then s else cas6Ends t ea (withdrawCas6 t s) (cas6Done t 2 0)
  | _, _ => s
def execCas6Timeout (t : ThreadId) (s : State) : Host.Outcome State Fault Refusal := .next (cas6Timeout t s)

/-! ### Late refusals (R125 to R127) -/

/-- A target refuses a store after it has retired: THR.SFAR, and a store fault to take. -/
def lateRefusal (t : ThreadId) (cause : BitVec 2) (ea : BitVec 36) (s : State) : State :=
  s.modThr t fun th =>
    let f := th.sfar
    { th with
      sfar := if f.valid then { f with more := true } else { f with valid := true, cause := cause, addr := ea }
      sfPend := th.sfPend ++ [(cause, ea)] }

/-- Take an entry out of a core's store buffer. -/
def dropEntry (c : CoreId) (e : SbEntry) (s : State) : State := s.modCor c fun k => { k with sb := k.sb.erase e }

/-- The buffered store that was sent under a tag. -/
def sentEntry (s : State) (c : CoreId) (tag : BitVec 8) : Option SbEntry :=
  (s.cor c).sb.find? fun e => decide (e.phase = .sent tag)

/-! ### The fabric (R320, R479) -/

def findReq (s : State) (tag : BitVec 8) : Option FabReq := s.fab.out.find? fun r => decide (r.tag = tag)

/-- A request is no longer outstanding. -/
def dropReq (tag : BitVec 8) (s : State) : State :=
  { s with fab := { s.fab with out := s.fab.out.filter fun r => decide (r.tag ≠ tag) } }

/-- The byte address of a request. -/
def FabReq.byteAddr (r : FabReq) : Nat := 0x20000000 + r.addr.toNat

/-- A line fill in progress ends: the line is installed, unless the core is in deterministic mode (R129, R307). -/
def endFill (c : CoreId) (f : Nat × Option (BitVec 8)) (bytes : List StoredByte) (s : State) : State :=
  s.modCor c fun k => { k with
    dlines := if k.act then k.dlines else insDline k.dlines { addr := f.1, bytes := bytes }
    dfills := k.dfills.erase f }

/-- A host line arrives under a tag: it is installed if its fill has not been discarded (R307). -/
def installLine (c : CoreId) (line : Nat) (tag : BitVec 8) (bs : List Byte) (s : State) : State :=
  if (s.cor c).dfills.contains (line, some tag) then endFill c (line, some tag) (bs.map encByte) s else s

/-- The comparators that match a load by the time it reaches retirement (R467). -/
def loadHits (s : State) (t : ThreadId) (sh : LoadShape) (ea : BitVec 36) : BitVec 8 :=
  pcHits s t ||| dataHits s t false ea.toNat sh.width

/-- A fabric response completes a load (R122, R307). -/
def loadAnswer (t : ThreadId) (r : FabReq) (bs : List Byte) (s : State) : Option State :=
  match (s.thr t).pend with
  | .load sh ea next =>
    let s0 := if r.len = 48 then installLine t.core r.byteAddr r.tag bs s else s
    (ensureCur t false (formCells sh.form) s0).map fun s1 =>
      let mine := (bs.drop (ea.toNat - r.byteAddr)).take sh.width
      let left := if formUpdates sh.form then [next] else []
      atRetirement t (loadHits s t sh ea) s0 (.next (loadDone t sh ea.toNat left mine s1))
  | _ => some s

/-- What a thread's block step comes to with a response, or with an error or timeout (R152, R157). A block instruction yields after
the step when a debug halt has been recognised (R460). -/
def blockAnswer (t : ThreadId) (r : FabReq) (bs : Option (List Byte)) (s : State) : Option State :=
  match (s.thr t).pend with
  | .block b =>
    (ensureCur t false 3 s).map fun s1 =>
      blockAnswered t b (dataHits s1 t r.we r.byteAddr r.len) s1 <| match bs with
        | none => .fault (excFabric (BitVec.ofNat 36 r.byteAddr)) s1
        | some d =>
          if r.we then .ended (stepDone b b.buf) (lineUpdate t.core r.byteAddr b.buf s1)
          else stepUse t b d s1
  | _ => some s

/-- A Whistle operation's result is known (R454). -/
def whiResult (status : BitVec 4) (data : Cell) (s : State) : State :=
  match s.whi.op with
  | some o => { s with whi := { s.whi with op := some { o with result := some { status := status, data := data, cmd := o.cmd } } } }
  | none => s

/-- A response that is OK for the request it answers; none for ERROR. PEEKDENY answers only a peek. -/
def fabDelivers (r : FabReq) (data : BitVec 384) (st : BitVec 2) : Option (List Byte) :=
  if st = 0 then some (fabBytes data r.len) else none

/-- A request of the fabric ends, with bytes or an error (cause for THR.SFAR: ERROR or TIMEOUT). None: the answer has to be held. A store
that the fabric has acknowledged meets the fills of its line in that instant: one that ended before it is updated, one in progress is
discarded (R307; DESIGN CHOICE, notes/assumptions/122.md). -/
def endReq (r : FabReq) (bs : Option (List Byte)) (cause : BitVec 2) (denied : Bool) (s0 : State) : Option State :=
  let s := dropReq r.tag s0
  match r.use with
  | .orphan => some s
  | .whistle => some (match bs with
      | some d => whiResult 0 (if r.we then 0 else bytesCell d) s
      | none => whiResult (if denied then 2 else 6) 0 s)
  | .store t => match sentEntry s t.core r.tag with
    | some e =>
      let s1 := dropEntry t.core e s
      some (if bs.isSome then lineUpdate t.core r.byteAddr e.bytes s1 else lateRefusal t cause e.ea s1)
    | none => some s
  | .block t => blockAnswer t r bs s
  | .rom t => if mayWake s t then some (romAnswer t bs s) else none
  | .load t =>
    if mayWake s t = false then none
    else match bs, (s.thr t).pend with
      | some d, _ => loadAnswer t r d s
      | none, .load sh ea _ =>
        let s1 := if r.len = 48 then dropLine t.core r.byteAddr s else s
        some (atRetirement t (loadHits s t sh ea) s1 (.trap (excFabric ea) s1))
      | none, _ => some s

/-- A response of the fabric (R479). A timed-out tag is free again once its response has come.
DEDUCED (notes/assumptions/21.md). -/
def fabAnswer (tag : BitVec 8) (data : BitVec 384) (st : BitVec 2) (s : State) : State :=
  match findReq s tag with
  | some r => match endReq r (fabDelivers r data st) 0 (r.peek && decide (st = 2)) s with
    | some s1 => resumeBlocks s1
    | none => holdAnswer (.fabResponse tag data st) s
  | none => resumeBlocks { s with fab := { s.fab with blocked := s.fab.blocked.filter fun x => decide (x ≠ tag) } }

/-- Is a response held under a tag? A response wins over the timeout (R493). -/
def fabHeld (s : State) (tag : BitVec 8) : Bool := s.held.any fun i => match i with
  | .fabResponse u _ _ => decide (u = tag)
  | _ => false

/-- FABRIC_TIMEOUT: a request has had no response for FAB.CTL.TIMEOUT cycles; its tag stays blocked (R479). -/
def fabTimeout (tag : BitVec 8) (s : State) : State :=
  if s.fab.timeout = 0 ∨ fabHeld s tag then s
  else match (findReq s tag).filter fun r => decide (s.fab.timeout.toNat ≤ r.age) with
    | some r => match endReq r none 1 false { s with fab := { s.fab with blocked := s.fab.blocked ++ [tag] } } with
      | some s1 => resumeBlocks s1
      | none => holdAnswer (.fabricTimeout tag) s
    | none => s

/-! ### Answers that were held -/

/-- Deliver one answer. -/
def deliver (s : State) (i : Instr) : State :=
  match i with
  | .semResponse t old st => semAnswer t old st s
  | .fabResponse tag d st => fabAnswer tag d st s
  | .fabricTimeout tag => fabTimeout tag s
  | .chResponse rid r0 r1 => chAnswer rid r0 r1 s
  | .pwrAck => pwrAck s
  | _ => s

/-- Deliver the answers that were held, in their order; one that still has to wait is held again. -/
def replayHeld (s : State) : State := s.held.foldl deliver { s with held := [] }

/-- WAKE_COMPLETED (R426); a grant that arrived while the core rested is delivered (R437). -/
def execWakeCompleted (who : Option CoreId) (s : State) : Host.Outcome State Fault Refusal :=
  .next (replayHeld (wakeCompleted who s))

end Sys2Proof.Machine
end

