-- ==== Sys2Proof/Machine/Life.lean ====
section
/-! DEFINITION. Life-cycle transitions and the SEALED unlock (R488 to R492). The frames of AUTH are judged in
Machine/Whistle.lean. -/

namespace Sys2Proof.Machine

/-- Is a write of LC.CMD refused (R490, R491)? A TARGET above SCRAP names no state. -/
def lcRefused (v : Cell) (s : State) : Bool :=
  let target : BitVec 3 := v.extractLsb' 0 3
  decide (v.extractLsb' 32 16 ≠ 0x1C5E) || decide (target ≤ s.lc.stateOut) || s.lc.busy ||
    (decide (target = 3) && !s.lc.unlocked) || decide (s.lc.stateOut = 4) || decide (4 < target)

/-- LC_TRANSITION: a write of LC.CMD (R490, R491). -/
def lcTransition (v : Cell) (s : State) : State :=
  if lcRefused v s then { s with lc := { s.lc with refused := true } }
  else lcTry { s with lc := { s.lc with busy := true, target := v.extractLsb' 0 3, phase := .waiting } }
def execLcTransition (v : Cell) (s : State) : Host.Outcome State Fault Refusal := .next (lcTransition v s)

/-- LC_TRANSITION_COMPLETE: the marks are written; LC_STATE changes, source 36 rises, BUSY clears, and the tile resets with SRC 4
(R491 steps 5 and 6). -/
def lcTransitionComplete (pins : Pins) (s : State) : State :=
  if lcDue s then
    let s1 := raiseSrc 36 { s with lc := { s.lc with stateOut := s.lc.target, busy := false } }
    bootTile kindTile (srcCell' kindTile .lifeCycle) false pins s1
  else s
def execLcTransitionComplete (pins : Pins) (s : State) : Host.Outcome State Fault Refusal := .next (lcTransitionComplete pins s)

/-! ### The SEALED unlock (R492) -/

/-- The answer to an AUTH step: its status and data, or the start of ARG 4's work with the status it will end with. -/
inductive AuthRes where
  | now (status : BitVec 4) (data : Cell)
  | later (status : BitVec 4)
  deriving DecidableEq, Repr

/-- Status codes of R454. -/
def whiOk : BitVec 4 := 0
def whiRefused : BitVec 4 := 6

/-- The value of a counter cell of the life-cycle area, its latest write in the keep store included (R489, R492). -/
def lcCounter (s : State) (i : Nat) : Cell :=
  match (s.ks.todo.filter fun j => decide (j.addr = lcCell i)).getLast? with
  | some j => bytesCell (j.bytes.map fun b => storedData (b.getD 0))
  | none => bytesCell (logicBytes s (lcCell i) 6)

/-- The second for which a mismatch refuses ARG 0, in 64ths of a time-keeper cycle (R492, R161). -/
def barUnits : Nat := 96000000000

/-- ARG 0: the challenge counter grows by 1 by one keep-store write; N_hi is its new value (R492).
DEDUCED (notes/assumptions/62.md). -/
def authChallenge (s : State) : AuthRes × State :=
  if s.lc.blocked ≠ 0 then (.now whiRefused 0, s)
  else
    let n := lcCounter s 32 + 1
    let lo := (dblOf s.now).lo
    let s1 := logicReads (lcCell 32) 6 s
    (.now whiOk n, keepStart .lifeCycle (lcCell 32) (cellBytes n) { s1 with lc := { s1.lc with challenge := some (n, lo), nlo := lo } })

/-- R as the tile computes it: the first 96 bits of HMAC-SHA-256 under the key, over N_hi, N_lo and TILE.IDENT (R492). -/
def authExpected (s : State) (n : Cell × Cell) : List Byte :=
  (hmacSha256 (logicBytes s (lcCell 24) 32) (cellBytes n.1 ++ cellBytes n.2 ++ cellBytes (tilePeekLow s 0))).take 12

/-- ARG 4: the check of R against a fresh challenge, which it uses up (R492). -/
def authVerify (s : State) : AuthRes × State :=
  match s.lc.challenge with
  | none => (.now whiRefused 0, s)
  | some n =>
    let good := decide (authExpected s n = cellBytes s.lc.rhi ++ cellBytes s.lc.rlo)
    let s1 := logicReads (lcCell 24) 32 s
    (.later (if good then whiOk else whiRefused), { s1 with lc := { s1.lc with challenge := none } })

/-- ARG 4 ends: a match unlocks; a mismatch adds 1 to FAILS and refuses ARG 0 for a second (R492). -/
def authEnd (status : BitVec 4) (s : State) : State :=
  if status = whiOk then { s with lc := { s.lc with unlocked := true } }
  else
    let n := min 15 (lcFails s + 1)
    let s1 := logicReads (lcCell 33) 6 s
    keepStart .lifeCycle (lcCell 33) (natBytes 6 n) { s1 with lc := { s1.lc with blocked := barUnits } }

/-- A step of AUTH in every state other than SEALED: OK with data 0, but REFUSED for ARG 4 in SCRAP (R492). -/
def authElsewhere (arg : BitVec 4) (s : State) : AuthRes :=
  if arg = 4 ∧ s.lc.stateOut = 4 then .now whiRefused 0 else .now whiOk 0

/-- ARG 1 returns N_lo; ARG 2 and ARG 3 store R_hi and R_lo; ARG 5 clears UNLOCKED (R492). -/
def authSimple (arg : BitVec 4) (v : Cell) (s : State) : AuthRes × State :=
  match arg.toNat with
  | 1 => (.now whiOk s.lc.nlo, s)
  | 2 => (.now whiOk 0, { s with lc := { s.lc with rhi := v } })
  | 3 => (.now whiOk 0, { s with lc := { s.lc with rlo := v } })
  | _ => (.now whiOk 0, { s with lc := { s.lc with unlocked := false } })

/-- A step of AUTH. -/
def authStep (arg : BitVec 4) (v : Cell) (s : State) : AuthRes × State :=
  if s.lc.stateOut ≠ 2 then (authElsewhere arg s, s)
  else match arg.toNat with
    | 0 => authChallenge s
    | 4 => authVerify s
    | _ => authSimple arg v s

end Sys2Proof.Machine
end

