-- ==== Sys2Proof/Machine/Logic.lean ====
section
/-! DEFINITION. Logic, shifts and bit fields (R99 to R104). None of them sets a flag. -/

namespace Sys2Proof.Machine

/-- An instruction ( a b -- r ) that sets no flag. -/
def logic2 (t : ThreadId) (f : Cell → Cell → Cell) : WordSem := WordSem.plain 2 1 fun cs s => match cs with
  | b :: a :: _ => .next (popPush t 2 [f a.val b.val] s)
  | _ => .hold s

/-- An instruction ( a -- r ) that sets no flag. -/
def logic1 (t : ThreadId) (f : Cell → Cell) : WordSem := WordSem.plain 1 1 fun cs s => match cs with
  | a :: _ => .next (popPush t 1 [f a.val] s)
  | [] => .hold s

/-- The number of leading zero bits of a cell, 0 to 48 (R102). -/
def leadingZeros (a : Cell) : Nat := ((List.range 48).findIdx? fun i => a.getLsbD (47 - i)).getD 48

/-- The order of the low n bytes reversed, the bits above them cleared (R103). -/
def byteSwap (n : Nat) (a : Cell) : Cell :=
  bytesCell (((cellBytes a).drop (6 - n)).reverse)

/-- The number 2^l − 1 as a cell, for l from 0 to 48. -/
def lowOnes (l : Nat) : Cell := BitVec.ofNat 48 (2 ^ l - 1)

/-- p and l of a field: cut at bit 47 (R104). -/
def fieldPos (pos : Cell) : Nat := min pos.toNat 48
def fieldLen (pos len : Cell) : Nat := min len.toNat (48 - fieldPos pos)

/-- The value EXT gives (R104). -/
def extField (a pos len : Cell) : Cell := (a >>> fieldPos pos) &&& lowOnes (fieldLen pos len)

/-- The value INS gives (R104). -/
def insField (a f pos len : Cell) : Cell :=
  let mask := lowOnes (fieldLen pos len) <<< fieldPos pos
  (a &&& ~~~mask) ||| ((f <<< fieldPos pos) &&& mask)

/-- AND (R100). -/
def semAndW (t : ThreadId) : WordSem := logic2 t fun a b => a &&& b
def execAndW (t : ThreadId) (g : Guard) (s : State) : Host.Outcome State Fault Refusal := .next (runWord t g (semAndW t) s)

/-- OR (R100). -/
def semOrW (t : ThreadId) : WordSem := logic2 t fun a b => a ||| b
def execOrW (t : ThreadId) (g : Guard) (s : State) : Host.Outcome State Fault Refusal := .next (runWord t g (semOrW t) s)

/-- XOR (R100). -/
def semXorW (t : ThreadId) : WordSem := logic2 t fun a b => a ^^^ b
def execXorW (t : ThreadId) (g : Guard) (s : State) : Host.Outcome State Fault Refusal := .next (runWord t g (semXorW t) s)

/-- NOT (R100). -/
def semNotW (t : ThreadId) : WordSem := logic1 t fun a => ~~~a
def execNotW (t : ThreadId) (g : Guard) (s : State) : Host.Outcome State Fault Refusal := .next (runWord t g (semNotW t) s)

/-- SHL ( a n -- a' ) (R101). -/
def semShl (t : ThreadId) : WordSem := logic2 t fun a n => a <<< min n.toNat 48
def execShl (t : ThreadId) (g : Guard) (s : State) : Host.Outcome State Fault Refusal := .next (runWord t g (semShl t) s)

/-- SHR ( a n -- a' ) (R101). -/
def semShr (t : ThreadId) : WordSem := logic2 t fun a n => a >>> min n.toNat 48
def execShr (t : ThreadId) (g : Guard) (s : State) : Host.Outcome State Fault Refusal := .next (runWord t g (semShr t) s)

/-- SAR ( a n -- a' ) (R101). -/
def semSar (t : ThreadId) : WordSem := logic2 t fun a n => a.sshiftRight (min n.toNat 48)
def execSar (t : ThreadId) (g : Guard) (s : State) : Host.Outcome State Fault Refusal := .next (runWord t g (semSar t) s)

/-- ROL ( a n -- a' ) (R101). -/
def semRol (t : ThreadId) : WordSem := logic2 t fun a n => a.rotateLeft (n.toNat % 48)
def execRol (t : ThreadId) (g : Guard) (s : State) : Host.Outcome State Fault Refusal := .next (runWord t g (semRol t) s)

/-- CLZ ( a -- z ) (R102). -/
def semClz (t : ThreadId) : WordSem := logic1 t fun a => BitVec.ofNat 48 (leadingZeros a)
def execClz (t : ThreadId) (g : Guard) (s : State) : Host.Outcome State Fault Refusal := .next (runWord t g (semClz t) s)

/-- POPC ( a -- c ) (R102). -/
def semPopc (t : ThreadId) : WordSem := logic1 t fun a => BitVec.ofNat 48 (popCount 48 a.toNat)
def execPopc (t : ThreadId) (g : Guard) (s : State) : Host.Outcome State Fault Refusal := .next (runWord t g (semPopc t) s)

/-- BSWAP2 ( a -- a' ) (R103). -/
def semBswap2 (t : ThreadId) : WordSem := logic1 t (byteSwap 2)
def execBswap2 (t : ThreadId) (g : Guard) (s : State) : Host.Outcome State Fault Refusal := .next (runWord t g (semBswap2 t) s)

/-- BSWAP3 ( a -- a' ) (R103). -/
def semBswap3 (t : ThreadId) : WordSem := logic1 t (byteSwap 3)
def execBswap3 (t : ThreadId) (g : Guard) (s : State) : Host.Outcome State Fault Refusal := .next (runWord t g (semBswap3 t) s)

/-- BSWAP4 ( a -- a' ) (R103). -/
def semBswap4 (t : ThreadId) : WordSem := logic1 t (byteSwap 4)
def execBswap4 (t : ThreadId) (g : Guard) (s : State) : Host.Outcome State Fault Refusal := .next (runWord t g (semBswap4 t) s)

/-- BSWAP6 ( a -- a' ) (R103). -/
def semBswap6 (t : ThreadId) : WordSem := logic1 t (byteSwap 6)
def execBswap6 (t : ThreadId) (g : Guard) (s : State) : Host.Outcome State Fault Refusal := .next (runWord t g (semBswap6 t) s)

/-- EXT ( a pos len -- f ) (R104). -/
def semExt (t : ThreadId) : WordSem := WordSem.plain 3 1 fun cs s => match cs with
  | len :: pos :: a :: _ => .next (popPush t 3 [extField a.val pos.val len.val] s)
  | _ => .hold s
def execExt (t : ThreadId) (g : Guard) (s : State) : Host.Outcome State Fault Refusal := .next (runWord t g (semExt t) s)

/-- INS ( a f pos len -- a' ) (R104). -/
def semIns (t : ThreadId) : WordSem := WordSem.plain 4 1 fun cs s => match cs with
  | len :: pos :: f :: a :: _ => .next (popPush t 4 [insField a.val f.val pos.val len.val] s)
  | _ => .hold s
def execIns (t : ThreadId) (g : Guard) (s : State) : Host.Outcome State Fault Refusal := .next (runWord t g (semIns t) s)

end Sys2Proof.Machine
end

