-- ==== Sys2Proof/Machine/Pred.lean ====
section
/-! DEFINITION. The predicate instructions (R105 to R107). A reserved field makes the word FIELD (R69, R73). -/

namespace Sys2Proof.Machine

/-- A compare that writes pk with a truth value. -/
def compareSem (t : ThreadId) (cond : BitVec 3) (k : BitVec 2) (negate : Bool) : WordSem :=
  { WordSem.plain 2 0 (fun cs s => match cs with
      | b :: a :: _ => .next (putPred t k (condHolds cond a.val b.val ^^ negate) (popPush t 2 [] s))
      | _ => .hold s) with
    illegal := if cmpField cond k then some 1 else none }

/-- CP.cond k ( a b -- ) (R106). -/
def semCp (t : ThreadId) (cond : BitVec 3) (k : BitVec 2) : WordSem := compareSem t cond k false
def execCp (t : ThreadId) (g : Guard) (cond : BitVec 3) (k : BitVec 2) (s : State) : Host.Outcome State Fault Refusal :=
  .next (runWord t g (semCp t cond k) s)

/-- CPN.cond k ( a b -- ) (R106). -/
def semCpn (t : ThreadId) (cond : BitVec 3) (k : BitVec 2) : WordSem := compareSem t cond k true
def execCpn (t : ThreadId) (g : Guard) (cond : BitVec 3) (k : BitVec 2) (s : State) : Host.Outcome State Fault Refusal :=
  .next (runWord t g (semCpn t cond k) s)

/-- PSET k ( x -- ) (R107). -/
def semPset (t : ThreadId) (k : BitVec 2) : WordSem :=
  { WordSem.plain 1 0 (fun cs s => match cs with
      | x :: _ => .next (putPred t k (decide (x.val ≠ 0)) (popPush t 1 [] s))
      | [] => .hold s) with
    illegal := if k = 0 then some 1 else none }
def execPset (t : ThreadId) (g : Guard) (k : BitVec 2) (s : State) : Host.Outcome State Fault Refusal :=
  .next (runWord t g (semPset t k) s)

/-- PINV k ( -- ) (R107). It reads the predicate as its guard was read (R57; DEDUCED, notes/assumptions/140.md). -/
def semPinv (t : ThreadId) (k : BitVec 2) : WordSem :=
  { WordSem.plain 0 0 (fun _ s => .next (putPred t k (!(s.thr t).guardPred k) s)) with
    illegal := if k = 0 then some 1 else none }
def execPinv (t : ThreadId) (g : Guard) (k : BitVec 2) (s : State) : Host.Outcome State Fault Refusal :=
  .next (runWord t g (semPinv t k) s)

end Sys2Proof.Machine
end

