-- ==== Sys2Proof/Machine/Stack.lean ====
section
/-! DEFINITION. Stack shuffles and literals (R92, R93, R62, R63). A shuffle reads no value (R92) and moves whole cells, poison marks
with them: one of class Z only renames them, and one of class A reads its operand cells from the file and writes fresh ones (R200). -/

namespace Sys2Proof.Machine

/-- A shuffle of class Z of the n top cells into others, top first: it changes only the map, so cells keep all their marks. -/
def shuffle (t : ThreadId) (pops pushes : Nat) (f : List PCell → List PCell) : WordSem :=
  { WordSem.plain pops pushes (fun cs s => .next (curReplace t false pops (f cs) s)) with test := fun _ => none }

/-- A shuffle of class A: it reads its operand cells, so that a parity error of one is raised, and poison goes with the cell (R88,
R200, R215). -/
def shuffleA (t : ThreadId) (pops pushes : Nat) (f : List PCell → List PCell) : WordSem :=
  { shuffle t pops pushes (fun cs => (f cs).map PCell.fresh) with test := parityFault }

/-- The new order of a shuffle's cells, each named by its place from the top. DEDUCED (notes/assumptions/13.md). -/
def reorder (js : List Nat) (cs : List PCell) : List PCell := js.map fun j => cs.getD j (PCell.of 0)

/-- DUP ( a -- a a ) (R92). -/
def semDup (t : ThreadId) : WordSem := shuffle t 1 2 (reorder [0, 0])
def execDup (t : ThreadId) (g : Guard) (s : State) : Host.Outcome State Fault Refusal := .next (runWord t g (semDup t) s)

/-- DROP ( a -- ) (R92). -/
def semDrop (t : ThreadId) : WordSem := shuffle t 1 0 (reorder [])
def execDrop (t : ThreadId) (g : Guard) (s : State) : Host.Outcome State Fault Refusal := .next (runWord t g (semDrop t) s)

/-- SWAP ( a b -- b a ) (R92). -/
def semSwap (t : ThreadId) : WordSem := shuffle t 2 2 (reorder [1, 0])
def execSwap (t : ThreadId) (g : Guard) (s : State) : Host.Outcome State Fault Refusal := .next (runWord t g (semSwap t) s)

/-- OVER ( a b -- a b a ) (R92). -/
def semOver (t : ThreadId) : WordSem := shuffle t 2 3 (reorder [1, 0, 1])
def execOver (t : ThreadId) (g : Guard) (s : State) : Host.Outcome State Fault Refusal := .next (runWord t g (semOver t) s)

/-- ROT ( a b c -- b c a ) (R92). -/
def semRot (t : ThreadId) : WordSem := shuffle t 3 3 (reorder [2, 0, 1])
def execRot (t : ThreadId) (g : Guard) (s : State) : Host.Outcome State Fault Refusal := .next (runWord t g (semRot t) s)

/-- NIP ( a b -- b ) (R92). -/
def semNip (t : ThreadId) : WordSem := shuffleA t 2 1 (reorder [0])
def execNip (t : ThreadId) (g : Guard) (s : State) : Host.Outcome State Fault Refusal := .next (runWord t g (semNip t) s)

/-- TUCK ( a b -- b a b ) (R92). -/
def semTuck (t : ThreadId) : WordSem := shuffleA t 2 3 (reorder [0, 1, 0])
def execTuck (t : ThreadId) (g : Guard) (s : State) : Host.Outcome State Fault Refusal := .next (runWord t g (semTuck t) s)

/-- DDUP ( d -- d d ) (R92). -/
def semDdup (t : ThreadId) : WordSem := shuffleA t 2 4 (reorder [0, 1, 0, 1])
def execDdup (t : ThreadId) (g : Guard) (s : State) : Host.Outcome State Fault Refusal := .next (runWord t g (semDdup t) s)

/-- DDROP ( d -- ) (R92). -/
def semDdrop (t : ThreadId) : WordSem := shuffleA t 2 0 (reorder [])
def execDdrop (t : ThreadId) (g : Guard) (s : State) : Host.Outcome State Fault Refusal := .next (runWord t g (semDdrop t) s)

/-- DSWAP ( d1 d2 -- d2 d1 ) (R92). -/
def semDswap (t : ThreadId) : WordSem := shuffleA t 4 4 (reorder [2, 3, 0, 1])
def execDswap (t : ThreadId) (g : Guard) (s : State) : Host.Outcome State Fault Refusal := .next (runWord t g (semDswap t) s)

/-- PICK n: the cell with n cells above it is copied, and it alone is read (R93). DEDUCED (notes/assumptions/13.md). -/
def semPick (t : ThreadId) (n : BitVec 4) : WordSem :=
  { shuffle t (n.toNat + 1) (n.toNat + 2) (fun cs => (cs.getD n.toNat (PCell.of 0)).fresh :: cs) with
    test := fun cs => parityFault ((cs.drop n.toNat).take 1) }
def execPick (t : ThreadId) (g : Guard) (n : BitVec 4) (s : State) : Host.Outcome State Fault Refusal :=
  .next (runWord t g (semPick t n) s)

/-- LIT pushes its 10 bits, sign-extended (R62), as a class-K cell (R83). -/
def semLit (t : ThreadId) (n : BitVec 10) : WordSem :=
  WordSem.plain 0 1 fun _ s => .next (curReplace t false 0 [PCell.ofK (n.signExtend 48)] s)
def execLit (t : ThreadId) (g : Guard) (n : BitVec 10) (s : State) : Host.Outcome State Fault Refusal :=
  .next (runWord t g (semLit t n) s)

/-- The value LITX leaves: (x shifted left by 9) OR its 9 bits (R63). -/
def litxValue (x : Cell) (b : BitVec 9) : Cell := (x <<< 9) ||| b.setWidth 48

/-- What reading LITX's operand raises: nothing for a class-K cell, whose value is formed from the words and not read (R83, R93, R200). -/
def litxFault : List PCell → Option Exc
  | x :: rest => if x.isK then none else readFault false (x :: rest)
  | [] => none

/-- LITX ( x -- x' ) (R63): of class K where its operand cell is, and then its result is a class-K cell too (R83). A cell that has been
spilled and filled again is not (DEDUCED, notes/assumptions/136.md). -/
def semLitx (t : ThreadId) (b : BitVec 9) : WordSem :=
  { WordSem.plain 1 1 (fun cs s => match cs with
      | x :: _ => .next (curReplace t false 1 [{ PCell.of (litxValue x.val b) with isK := x.isK }] s)
      | [] => .hold s) with
    test := litxFault }
def execLitx (t : ThreadId) (g : Guard) (b : BitVec 9) (s : State) : Host.Outcome State Fault Refusal :=
  .next (runWord t g (semLitx t b) s)

end Sys2Proof.Machine
end

