-- ==== Sys2Proof/Machine/Debug.lean ====
section
/-! DEFINITION. Run control: halt, release, selection, steps and injection (R458 to R466, R473). -/

namespace Sys2Proof.Machine

/-! ### Words as the debugger runs them -/

/-- The meaning of a word command: its thread, its guard and its tests and effect. -/
def semOf : Instr → Option (Guard × WordSem)
  | .bkpt t g => some (g, (semBkpt t))
  | .dup t g => some (g, (semDup t))
  | .drop t g => some (g, (semDrop t))
  | .swap t g => some (g, (semSwap t))
  | .over t g => some (g, (semOver t))
  | .rot t g => some (g, (semRot t))
  | .nip t g => some (g, (semNip t))
  | .tuck t g => some (g, (semTuck t))
  | .ddup t g => some (g, (semDdup t))
  | .ddrop t g => some (g, (semDdrop t))
  | .dswap t g => some (g, (semDswap t))
  | .pick t g n => some (g, (semPick t n))
  | .lit t g n => some (g, (semLit t n))
  | .litx t g b => some (g, (semLitx t b))
  | .add t g => some (g, (semAdd t))
  | .sub t g => some (g, (semSub t))
  | .mul t g => some (g, (semMul t))
  | .muld t g => some (g, (semMuld t))
  | .div t g => some (g, (semDiv t))
  | .divu t g => some (g, (semDivu t))
  | .mod t g => some (g, (semMod t))
  | .modu t g => some (g, (semModu t))
  | .neg t g => some (g, (semNeg t))
  | .abs t g => some (g, (semAbs t))
  | .andW t g => some (g, (semAndW t))
  | .orW t g => some (g, (semOrW t))
  | .xorW t g => some (g, (semXorW t))
  | .notW t g => some (g, (semNotW t))
  | .shl t g => some (g, (semShl t))
  | .shr t g => some (g, (semShr t))
  | .sar t g => some (g, (semSar t))
  | .rol t g => some (g, (semRol t))
  | .clz t g => some (g, (semClz t))
  | .popc t g => some (g, (semPopc t))
  | .bswap2 t g => some (g, (semBswap2 t))
  | .bswap3 t g => some (g, (semBswap3 t))
  | .bswap4 t g => some (g, (semBswap4 t))
  | .bswap6 t g => some (g, (semBswap6 t))
  | .ext t g => some (g, (semExt t))
  | .ins t g => some (g, (semIns t))
  | .cp t g cond k => some (g, (semCp t cond k))
  | .cpn t g cond k => some (g, (semCpn t cond k))
  | .pset t g k => some (g, (semPset t k))
  | .pinv t g k => some (g, (semPinv t k))
  | .brs t g e => some (g, (semBrs t e))
  | .calls t g e => some (g, (semCalls t e))
  | .br t g => some (g, (semBr t))
  | .call t g => some (g, (semCall t))
  | .ret t g => some (g, (semRet t))
  | .nextW t g f => some (g, (semNextW t f))
  | .kill t g => some (g, (semKill t))
  | .gate t g k => some (g, (semGate t k))
  | .gret t g => some (g, (semGret t))
  | .reti t g => some (g, (semReti t))
  | .ld1 t g form => some (g, (semLd1 t form))
  | .ld2 t g form => some (g, (semLd2 t form))
  | .ld3 t g form => some (g, (semLd3 t form))
  | .ld4 t g form => some (g, (semLd4 t form))
  | .ld6 t g form => some (g, (semLd6 t form))
  | .lds1 t g form => some (g, (semLds1 t form))
  | .lds2 t g form => some (g, (semLds2 t form))
  | .lds3 t g form => some (g, (semLds3 t form))
  | .lds4 t g form => some (g, (semLds4 t form))
  | .ldd t g form => some (g, (semLdd t form))
  | .st1 t g form => some (g, (semSt1 t form))
  | .st2 t g form => some (g, (semSt2 t form))
  | .st3 t g form => some (g, (semSt3 t form))
  | .st4 t g form => some (g, (semSt4 t form))
  | .st6 t g form => some (g, (semSt6 t form))
  | .std t g form => some (g, (semStd t form))
  | .lr6 t g => some (g, (semLr6 t))
  | .sc6 t g => some (g, (semSc6 t))
  | .tas t g => some (g, (semTas t))
  | .cas6 t g => some (g, (semCas6 t))
  | .fence t g => some (g, (semFence t))
  | .flush t g => some (g, (semFlush t))
  | .inval t g => some (g, (semInval t))
  | .pst t g => some (g, (semPst t))
  | .pld t g => some (g, (semPld t))
  | .psync t g => some (g, (semPsync t))
  | .move t g y => some (g, (semMove t y))
  | .fill t g y => some (g, (semFill t y))
  | .csum t g y => some (g, (semCsum t y))
  | .tnow t g => some (g, (semTnow t))
  | .tadd t g => some (g, (semTadd t))
  | .tsub t g => some (g, (semTsub t))
  | .tcmp t g => some (g, (semTcmp t))
  | .tscale t g => some (g, (semTscale t))
  | .waitt t g => some (g, (semWaitt t))
  | .wfe t g => some (g, (semWfe t))
  | .sev t g => some (g, (semSev t))
  | .getwork t g => some (g, (semGetwork t))
  | .forward t g => some (g, (semForward t))
  | .doneW t g => some (g, (semDoneW t))
  | .dropw t g => some (g, (semDropw t))
  | .tag t g => some (g, (semTag t))
  | .untag t g => some (g, (semUntag t))
  | .setlaunch t g => some (g, (semSetlaunch t))
  | .leash t g => some (g, (semLeash t))
  | .unleash t g => some (g, (semUnleash t))
  | .crc32 t g => some (g, (semCrc32 t))
  | .crc32c t g => some (g, (semCrc32c t))
  | .csum16 t g => some (g, (semCsum16 t))
  | .csumupd t g => some (g, (semCsumupd t))
  | .keyld t g => some (g, (semKeyld t))
  | .gcmenc t g => some (g, (semGcmenc t))
  | .gcmdec t g => some (g, (semGcmdec t))
  | .sha256 t g => some (g, (semSha256 t))
  | .shachain t g => some (g, (semShachain t))
  | .lkp t g => some (g, (semLkp t))
  | .lkpx t g => some (g, (semLkpx t))
  | .lkpt t g => some (g, (semLkpt t))
  | .hashW t g => some (g, (semHashW t))
  | .seqrec t g => some (g, (semSeqrec t))
  | .seqrst t g => some (g, (semSeqrst t))
  | .customerHelperOp t g f => some (g, (semCustomerHelperOp t f))
  | .reservedEncoding _ g _ => some (g, semReserved)
  | _ => none

/-- The command of the word a thread would issue next. A word that no fetch delivers raises at its fetch, before anything of it is
looked at. A word of local program RAM is read at the step, so one that a PST has replaced is the new one before any PSYNC (R148; DESIGN
CHOICE, notes/assumptions/106.md). -/
def nextInstr (s : State) (t : ThreadId) : Instr :=
  match (threadFetch s t (s.thr t).arch.pc).1 with
  | .word w => decodeWord t w
  | _ => .reservedEncoding t 0 0xF00

/-- Does the tile refuse to inject a word (R465): class-B words, the words R465 names, and the helper block? UNLEASH is not among them and
ends the leash in the halt, as a stepped UNLEASH or RETI does (R257). DESIGN CHOICE (notes/assumptions/116.md). -/
def injectRefused (w : PWord) : Bool :=
  let op := (w.extractLsb' 0 12).toNat
  decide ((0x600 ≤ op ∧ op < 0x800) ∨ (0x900 ≤ op ∧ op < 0xB05) ∨ (0xE00 ≤ op ∧ op < 0xF00)) ||
    [0x800, 0xB23, 0xB45, 0xB46, 0xB50, 0xB52, 0xB53, 0xB54, 0xB60, 0xBFF].contains op

/-- The thread DBG.SEL names. -/
def selThread (s : State) : ThreadId := ⟨s.dbg.sel.toNat % 128, Nat.mod_lt _ (by decide)⟩

/-! ### Halt and release (R459 to R462, R473) -/

/-- DBG.CTL.HALT (R459, R462). -/
def execDebugHalt (s : State) : Host.Outcome State Fault Refusal := .next (askHalt s)

/-- Does a block instruction stand in flight? -/
def blocksRun (s : State) : Bool := s.threads.toList.any fun th => match th.pend with
  | .block _ => true
  | _ => false

/-- The grace rule of R473. -/
def graceCore (g : BitVec 24) (k : Core) : Core :=
  if k.wdg.stage ≠ .off ∧ k.wdg.count < g then { k with wdg := { k.wdg with count := g } } else k

/-- The thread that a 7-bit field names (R6). -/
def threadNo (b : BitVec 7) : ThreadId := ⟨b.toNat % 128, Nat.mod_lt _ (by decide)⟩

/-- The release: grace, SKIP for the threads that comparators halted, the runs of the boot ROM and the answers that were held, and the
waits (R462). A step that still runs ends without an outcome and its word runs on, and an injected word that waits is dropped (DESIGN
CHOICE, notes/assumptions/149.md). -/
def release' (s : State) : State :=
  let s1 := { s with cores := s.cores.map (graceCore s.grace) }
  let s2 := s.dbg.cmpThreads.foldl (fun acc n => acc.modThr (threadNo n) fun th => { th with skip := true }) s1
  let d := { s.dbg with
    halted := false
    halting := false
    resumeWait := false
    stepping := false
    selReady := false
    cmpThreads := []
    injWait := none }
  wakeAll (replayHeld (helpersGo (romReleased { s2 with dbg := d })))

/-- DBG.CTL.RESUME (R462). -/
def debugResume (s : State) : State :=
  if s.dbg.halted then release' s
  else if s.dbg.halting then { s with dbg := { s.dbg with resumeWait := true } }
  else s
def execDebugResume (s : State) : Host.Outcome State Fault Refusal := .next (debugResume s)

/-- The semaphore unit has stalled the read of a stepped CAS6, which has parked: the step ends, and the tile halts again (R141, R464). That
HALT_COMPLETE ends it is a DESIGN CHOICE (notes/assumptions/102.md). -/
def stepParks (s : State) : State :=
  if s.dbg.halted ∧ s.dbg.stepping ∧ parkCode (s.thr (selThread s)).pend = 5 then endStep 3 false s else s

/-- HALT_COMPLETE: once the last block step has ended, HALTED sets, and a RESUME written meanwhile takes effect (R460, R462).
Every block instruction completes the step it is in and yields, so that one that waits for a tag or the keep store tries again. In a
step the tile halts again with a CAS6 that has parked. -/
def haltComplete (s : State) : State :=
  if s.dbg.halting = false then stepParks s
  else
    let s1 := resumeBlocks s
    if blocksRun s1 then s1
    else
      let s2 := { s1 with dbg := { s1.dbg with halting := false, halted := true } }
      if s2.dbg.resumeWait then release' s2 else s2
def execHaltComplete (s : State) : Host.Outcome State Fault Refusal := .next (haltComplete s)

/-- DBG.CTL.DETACH (R458). DESIGN CHOICE, unsafe (log entry 95): emulation ends and an emulated rest level that stands becomes a real one
at once, for the tile and for each core; R458 does not say that such a level ends. -/
def debugDetach (s : State) : State := { s with dbg := { s.dbg with attached := false, rsthalt := false } }
def execDebugDetach (s : State) : Host.Outcome State Fault Refusal := .next (debugDetach s)

/-! ### Selection, DPC, steps and injection (R463 to R466) -/

/-- A write of DBG.SEL: a selection while the tile is halted, at the end of a step that runs (R463, R474). -/
def debugSelect (t : ThreadId) (s : State) : State :=
  if s.dbg.halted = false then { s with dbg := { s.dbg with sel := BitVec.ofNat 7 t.val } }
  else if s.dbg.stepping then { s with dbg := { s.dbg with selWait := some t } }
  else selectThread t s
def execDebugSelect (t : ThreadId) (s : State) : Host.Outcome State Fault Refusal := .next (debugSelect t s)

/-- A write of THR.DPC.PC while the tile is halted (R466). DESIGN CHOICE, unsafe (log entry 97): a thread parked in CAS6, of which R466
does not speak and which R463 refuses to select, has its request withdrawn (SEM_WDR, R145) with its other unretired words. A word that a
step or an injection runs goes with them, and neither STEPST nor DONE tells of it (DESIGN CHOICE, notes/assumptions/150.md). -/
def dpcWrite (t : ThreadId) (pc : WAddr) (s : State) : State :=
  if s.dbg.halted = false then s
  else
    let s1 := (discardPend t s).modThr t fun th =>
      { th with skip := true, unstack := none, entering := none, chainAt := none, arch := { th.arch with pc := pc } }
    { s1 with dbg := { s1.dbg with cmpThreads := s1.dbg.cmpThreads.erase (BitVec.ofNat 7 t.val) } }
def execDpcWrite (t : ThreadId) (pc : WAddr) (s : State) : Host.Outcome State Fault Refusal := .next (dpcWrite t pc s)

/-- The selected thread issues one word. A word that waits for stores or a tag goes on with the step when they have gone, and a
CAS6 ends it with the semaphore unit's answer, or as it parks (R464). A parity error of the core's map comes first (DEDUCED, notes/assumptions/81.md), and a store of the thread that a
deterministic core has still to drain holds the word back (R118). A FENCE retires once its thread's stores have left the store buffer,
also where a refused one's fault waits for the release (R460). DESIGN CHOICE (notes/assumptions/89.md). A mode switch of the core (R225)
holds back no stepped word. DESIGN CHOICE (notes/assumptions/115.md). -/
def stepRun (t : ThreadId) (s0 : State) : State :=
  let s := { s0 with dbg := { s0.dbg with stepping := true } }
  if (s.cor t.core).mapPar then endStep 3 false (fenceCore t.core 1 s)
  else if drainsFirst s t then s
  else match semOf (nextInstr s t) with
    | none => s
    | some (g, sem) => doWord t g sem s

/-- Does an injected word still run? -/
def injectBusy (s : State) : Bool := s.dbg.injWait.isSome || (s.thr (selThread s)).inj.isSome

/-- DBG.CTL.STEP: refused where READY is 0, or the thread cannot issue (R464; DEDUCED, notes/assumptions/30.md). Written while a step or an
injected word still runs it is ignored, and STEPST stays (DESIGN CHOICE, notes/assumptions/110.md). -/
def debugStep (s : State) : State :=
  let t := selThread s
  if s.dbg.stepping || injectBusy s then s
  else if s.dbg.halted && s.dbg.selReady && !(s.thr t).stopped && !(s.cor t.core).fenced then stepRun t s
  else { s with dbg := { s.dbg with stepst := 4 } }
def execDebugStep (s : State) : Host.Outcome State Fault Refusal := .next (debugStep s)

/-- An injected word that has to wait is kept (R465). DEDUCED (notes/assumptions/63.md). -/
def injectWaits (ml : Bool) (w : PWord) (s : State) : State := { s with dbg := { s.dbg with injWait := some (ml, w) } }

/-- An injected word runs on the selected thread. An exception leaves no effect of the word (R465); a word that waits for stores or a
tag goes on when they have gone (R118). DEDUCED (notes/assumptions/63.md). -/
def injectRun (t : ThreadId) (ml : Bool) (w : PWord) (s0 : State) : State :=
  let s := { s0 with dbg := { s0.dbg with injWait := none, injUndo := [] } }
  match semOf (decodeWord t w) with
  | none => s
  | some (g, sem) =>
    if drainsFirst s t then injectWaits ml w s
    else
      let s1 := s.modThr t fun th => { th with inj := some ml }
      match wordPhase t g sem s1 with
      | .trap x _ => raiseExc t x s1
      | .hold s2 => if (s2.thr t).pend = .none then injectWaits ml w s else s2
      | r => finishWord t none r

/-- DBG.INJECT: DONE clears as the write drains; the rest of DBG.ISTAT speaks of the last word that was injected or refused (R465,
R470). Written while a step or an injected word still runs it does no more (DESIGN CHOICE, notes/assumptions/111.md). -/
def debugInject (ml : Bool) (w : PWord) (s : State) : State :=
  let s1 := { s with dbg := { s.dbg with istDone := false } }
  if s.dbg.halted && s.dbg.selReady && !s.dbg.stepping && !injectBusy s then
    let s2 := { s1 with dbg := { s1.dbg with istExc := false, istRefused := false } }
    if injectRefused w then { s2 with dbg := { s2.dbg with istRefused := true } } else injectRun (selThread s) ml w s2
  else s1
def execDebugInject (ml : Bool) (w : PWord) (s : State) : Host.Outcome State Fault Refusal := .next (debugInject ml w s)

/-- What a debugger runs and what waited tries again: a step whose word has not issued yet, or an injected word (R464, R465). -/
def stepRetry (s : State) : State :=
  if s.dbg.stepping ∧ (s.thr (selThread s)).pend = .none then stepRun (selThread s) s
  else match s.dbg.injWait with
    | some (ml, w) => injectRun (selThread s) ml w s
    | none => s

end Sys2Proof.Machine
end

