-- ==== Sys2Proof/Machine/RegStore.lean ====
section
/-! DEFINITION. Stores to registers: what a write of each register of R502 does, by the fields of its table and their kinds (R7),
and the commands that are such writes (chapter 18 and the tables it names). -/

namespace Sys2Proof.Machine

/-- An RW1C bit after a write (R7). -/
def rw1c (old : Bool) (v : Cell) (i : Nat) : Bool := old && !v.getLsbD i

/-- Is the writer the Whistle port? -/
def isWhistle : Agent → Bool
  | .whistle => true
  | .thread _ => false

/-! ### Tile registers -/

/-- TK.CTL: SLEW, MODE, and STEPGO (R163, R164). -/
def storeTkCtl (v : Cell) (s : State) : State :=
  let mode := match (v.extractLsb' 2 2).toNat with
    | 0 => TkMode.free
    | 1 => TkMode.capture
    | 2 => TkMode.follow
    | _ => s.tk.mode
  let s1 := { s with tk := { s.tk with slew := v.extractLsb' 5 2, mode := mode } }
  if v.getLsbD 4 then timeStep s1 else s1

/-- TK.STATUS (R166). A clear of PPS in the cycle of an edge, before the next TIME_KEEPER_CYCLE, loses to it (R7, R423).
DESIGN CHOICE (notes/assumptions/11.md). -/
def storeTkStatus (v : Cell) (k : TimeKeeper) : TimeKeeper :=
  { k with
    steperr := rw1c k.steperr v 3
    buserr := rw1c k.buserr v 2
    miss := rw1c k.miss v 1
    pps := if k.ppsAge = some 0 then k.pps else rw1c k.pps v 0 }

/-- PWR.CTL (R441). -/
def storePwrCtl (v : Cell) (p : Power) : Power :=
  { p with
    dozedly := v.extractLsb' 32 16
    napdly := v.extractLsb' 16 16
    descwc := v.extractLsb' 4 2
    offen := v.getLsbD 3
    sleepen := v.getLsbD 2
    dozeen := v.getLsbD 1
    napen := v.getLsbD 0 }

/-- PWR.STATUS (R441). -/
def storePwrStatus (v : Cell) (p : Power) : Power :=
  { p with
    proferr := rw1c p.proferr v 47
    refused := rw1c p.refused v 46
    hostwake := rw1c p.hostwake v 38 }

/-- PWR.PROFCMD: SEL, and GO (R441, R446). -/
def storeProfCmd (v : Cell) (s : State) : State :=
  if v.getLsbD 2 then profileLoadCommand (v.extractLsb' 0 2) s
  else { s with pwr := { s.pwr with sel := v.extractLsb' 0 2 } }

/-- The action bits of DBG.CTL, from the lowest up, round the RW bit RSTHALT (R458, R459, R462, R464, R470).
DEDUCED (notes/assumptions/51.md). -/
def storeDbgCtl (v : Cell) (s : State) : State :=
  let s1 := if v.getLsbD 3 then askHalt s else s
  let s2 := if v.getLsbD 4 then debugResume s1 else s1
  let s3 := if v.getLsbD 5 then debugStep s2 else s2
  let s4 := { s3 with dbg := { s3.dbg with rsthalt := v.getLsbD 6 } }
  if v.getLsbD 7 then debugDetach s4 else s4

/-- Stores to the DBG tile registers, which the Whistle port alone writes (R470). -/
def storeDbg (ag : Agent) (k : Nat) (v : Cell) (s : State) : State :=
  if isWhistle ag = false then s
  else match k with
    | 48 => storeDbgCtl v s
    | 50 => debugSelect (threadNo (v.extractLsb' 0 7)) s
    | 51 => debugInject (v.getLsbD 14) (v.extractLsb' 0 14) s
    | _ => s

/-- ECC.CLEAR: BANK, and GO (R348). -/
def storeEccClear (v : Cell) (s : State) : State :=
  if v.getLsbD 8 then flashClear (v.extractLsb' 0 7) s
  else { s with ecc := { s.ecc with clearBank := v.extractLsb' 0 7 } }

/-- SCRUB.CTL (R344). -/
def storeScrub (v : Cell) (e : Ecc) : Ecc :=
  scrubControl (v.extractLsb' 0 5) (v.getLsbD 7) (v.getLsbD 6) (v.getLsbD 5) e

/-- ECC.STATUS (R339). -/
def storeEccStatus (v : Cell) (e : Ecc) : Ecc :=
  { e with
    sat := rw1c e.sat v 3
    ueovf := rw1c e.ueovf v 2
    ceovf := rw1c e.ceovf v 1
    poisoned := rw1c e.poisoned v 0 }

/-- Tile registers of cells 1 to 10 (R335, R418, R313, R323, R490, R472, R479). -/
def storeTileA (k : Nat) (v : Cell) (s : State) : State :=
  match k with
  | 1 => { s with fab := { s.fab with timeout := v.extractLsb' 0 24 } }
  | 2 => { s with ecc := { s.ecc with legacy := v.getLsbD 0 } }
  | 3 => serveClass 1 (serveClass 0 { s with help := { s.help with chto := v.extractLsb' 20 12, detres := v.getLsbD 0 } })
  | 4 => { s with help := { s.help with chtoFlag := rw1c s.help.chtoFlag v 0 } }
  | 5 => if v.getLsbD 0 then wipeKennel 3 s else s
  | 6 => { s with knl := { s.knl with done := rw1c s.knl.done v 0 } }
  | 7 => { s with ks := { s.ks with refused := rw1c s.ks.refused v 1, done := rw1c s.ks.done v 0 } }
  | 8 => lcTransition v s
  | 9 => { s with lc := { s.lc with refused := rw1c s.lc.refused v 46 } }
  | 10 => { s with grace := v.extractLsb' 0 24 }
  | _ => s

/-- The time keeper's registers, cells 16 to 25 (R162 to R166). -/
def storeTk (k : Nat) (v : Cell) (s : State) : State :=
  match k with
  | 16 => { s with tk := { s.tk with incr := v } }
  | 17 => storeTkCtl v s
  | 18 => { s with tk := { s.tk with adj := v } }
  | 19 => { s with tk := { s.tk with stephi := v } }
  | 20 => { s with tk := { s.tk with steplo := v } }
  | 25 => { s with tk := storeTkStatus v s.tk }
  | _ => s

/-- The power manager's registers, cells 32 to 39 (R438, R441). -/
def storePwr (k : Nat) (v : Cell) (s : State) : State :=
  match k with
  | 32 => { s with pwr := storePwrCtl v s.pwr }
  | 33 => { s with pwr := storePwrStatus v s.pwr }
  | 34 => storeProfCmd v s
  | 39 => { s with help := { s.help with off := v.extractLsb' 0 4 } }
  | k => { s with pwr := { s.pwr with tol := s.pwr.tol.set (k - 35) (v.extractLsb' 0 32) } }

/-- The scrubber's and the logs' registers, cells 64 to 75 (R339, R344, R348). -/
def storeEcc (k : Nat) (v : Cell) (s : State) : State :=
  match k with
  | 64 => { s with ecc := storeScrub v s.ecc }
  | 65 => { s with ecc := { s.ecc with pass := rw1c s.ecc.pass v 47 } }
  | 72 => { s with ecc := storeEccStatus v s.ecc }
  | 75 => storeEccClear v s
  | _ => s

/-- The fetch unit's registers, cells 256 to 258 (R373, R393). A lower watermark is no move of QCOUNT. -/
def storeFetch (k : Nat) (v : Cell) (s : State) : State :=
  match k with
  | 256 => { s with fetch := { s.fetch with admitOn := v.getLsbD 4, xshare := v.extractLsb' 0 4 } }
  | 257 => { s with fetch := { s.fetch with decl := rw1c s.fetch.decl v 32, refuse := rw1c s.fetch.refuse v 31 } }
  | 258 => { s with fetch := { s.fetch with wm := v.extractLsb' 0 13 } }
  | _ => s

/-- The heel's registers, cells 320 to 325 (R361, R392). -/
def storeHeel (k : Nat) (v : Cell) (s : State) : State :=
  match k with
  | 320 => { s with heel := { s.heel with stuck := v.extractLsb' 0 16 } }
  | 321 => { s with heel := { s.heel with
      drained := rw1c s.heel.drained v 19
      late := rw1c s.heel.late v 18
      lossovf := rw1c s.heel.lossovf v 17 } }
  | 322 => { s with heel := { s.heel with flowsel := v.extractLsb' 0 16 } }
  | 325 => if v.getLsbD 0 then flowReset s else s
  | _ => s

/-- A write of LKP.TRES commits the staged cells and RES to the selected entry (R412). -/
def ternaryCommit (v : Cell) (s : State) : State :=
  let h := s.help
  let e : Tern :=
    { keyhi := h.stKeyhi
      keylo := h.stKeylo
      mskhi := h.stMskhi
      msklo := h.stMsklo
      valid := v.getLsbD 47
      data := v.extractLsb' 0 32 }
  { s with help := { h with tern := smPut Tern.boot h.tern h.tsel.toNat e } }

/-- The lookup registers, cells 384 to 390 (R412). -/
def storeLkp (k : Nat) (v : Cell) (s : State) : State :=
  match k with
  | 384 => { s with help := { s.help with lkpEn := v.getLsbD 47, lkpBase := v.extractLsb' 0 36 } }
  | 385 => { s with help := { s.help with tsel := v.extractLsb' 0 9 } }
  | 386 => { s with help := { s.help with stKeyhi := v } }
  | 387 => { s with help := { s.help with stKeylo := v } }
  | 388 => { s with help := { s.help with stMskhi := v } }
  | 389 => { s with help := { s.help with stMsklo := v } }
  | 390 => ternaryCommit v s
  | _ => s

/-- A write of SEQ.CFG resets the selected stream; with a pending update it takes effect after that (R415). -/
def streamReset (v : Cell) (s : State) : State :=
  let h := s.help
  let st := h.seqSel
  if h.seqBusy st then { s with help := { h with cfgWait := h.cfgWait ++ [(st, v)] } }
  else { s with help := h.setStream st (streamConfig v (h.stream st)) }

/-- A node's first register; ORD 0b11 leaves ORD (R354). -/
def storeNodeA (v : Cell) (n : Node) : Node :=
  { n with
    en := v.getLsbD 47
    ord := match (v.extractLsb' 45 2).toNat with
      | 0 => .ordered
      | 1 => .atomicTag
      | 2 => .free
      | _ => n.ord
    replay := v.getLsbD 44
    prio := v.extractLsb' 41 3
    budget := v.extractLsb' 32 9
    cost := v.extractLsb' 23 9
    pc := v.extractLsb' 0 20 }

/-- A node's second register (R354). -/
def storeNodeB (v : Cell) (n : Node) : Node :=
  { n with
    cores := v.extractLsb' 32 16
    aff := v.extractLsb' 28 4
    pathb := v.extractLsb' 19 9
    pathw := v.extractLsb' 10 9 }

/-- FETCH.NODEA and FETCH.NODEB, by the distance from cell 1,024 (R354). -/
def storeNode (j : Nat) (v : Cell) (s : State) : State :=
  let n := smGet Node.boot s.fetch.nodes (j / 2)
  let n1 := if j % 2 = 0 then storeNodeA v n else storeNodeB v n
  { s with fetch := { s.fetch with nodes := smPut Node.boot s.fetch.nodes (j / 2) n1 } }

/-- GATE.ENTA and GATE.ENTB, by the distance from cell 2,048; reserved bits are not stored (R239). -/
def storeGate (j : Nat) (v : Cell) (s : State) : State :=
  let e := smGet GateEntry.boot s.gates (j / 2)
  let e1 : GateEntry := if j % 2 = 0 then { e with enta := v &&& 0xFFFFFFEFFFFF } else { e with entb := v &&& 0x30000FFFFFFF }
  { s with gates := smPut GateEntry.boot s.gates (j / 2) e1 }

/-- The fields of TIC.SRC that a write replaces; LVL 0b11 leaves LVL, PRIO 0 releases the hold (R267, R274). -/
def storeSrcFields (v : Cell) (x : Src) : Src :=
  { x with
    wclass := v.extractLsb' 12 2
    lvl := (levelOf (v.extractLsb' 8 2)).getD x.lvl
    prio := v.extractLsb' 0 4
    held := if v.extractLsb' 0 4 = 0 then none else x.held }

/-- TIC.SRC[i]: a software clear, then an edge by SETP, which comes a cycle later (R267, R269, R271). -/
def storeSrc (i : Nat) (v : Cell) (s : State) : State :=
  if srcExists i = false then s
  else
    let s1 := s.setSrc i (storeSrcFields v (s.src i))
    let s2 := if v.getLsbD 47 then retractSrc i s1 else s1
    if v.getLsbD 46 then raiseSrc i s2 else s2

/-- One word of a target mask (R268). -/
def storeTgt (j : Nat) (v : Cell) (x : Src) : Src :=
  { x with tgt := match j with
      | 0 => x.tgt.extractLsb' 48 80 ++ v
      | 1 => x.tgt.extractLsb' 96 32 ++ v ++ x.tgt.extractLsb' 0 48
      | _ => v.extractLsb' 0 32 ++ x.tgt.extractLsb' 0 96 }

/-- TIC.TGT0 to TIC.TGT2, by the distance from cell 8,192. A reserved source's mask takes the write too (R268).
DEDUCED (notes/assumptions/83.md). -/
def storeTarget (j : Nat) (v : Cell) (s : State) : State :=
  s.setSrc (j / 3) (storeTgt (j % 3) v (s.src (j / 3)))

/-- A store to a tile register (R502). -/
def storeTile (ag : Agent) (k : Nat) (v : Cell) (s : State) : State :=
  if k ≤ 10 then storeTileA k v s
  else if k ≤ 25 then storeTk k v s
  else if k ≤ 39 then storePwr k v s
  else if k ≤ 54 then storeDbg ag k v s
  else if k ≤ 75 then storeEcc k v s
  else if k < 256 then s
  else if k ≤ 259 then storeFetch k v s
  else if k < 320 then s
  else if k ≤ 326 then storeHeel k v s
  else if k ≤ 390 then storeLkp k v s
  else if k = 400 then { s with help := { s.help with seqSel := v.extractLsb' 0 12 } }
  else if k = 401 then streamReset v s
  else if k = 449 then { s with tic := { s.tic with mctgt := v.extractLsb' 0 7 } }
  else if 1024 ≤ k ∧ k < 1536 then storeNode (k - 1024) v s
  else if 2048 ≤ k ∧ k < 2560 then storeGate (k - 2048) v s
  else if 4096 ≤ k ∧ k < 4608 then storeSrc (k - 4096) v s
  else if 8195 ≤ k ∧ k ≤ 9151 then storeTarget (k - 8192) v s
  else s

/-! ### Core registers -/

/-- A request for a mode: a change of DET starts a switch (R225). -/
def modeRequest (det : Bool) (k : Core) : Core :=
  if det = k.det then k else { k with det := det, switching := true }

/-- A write of DET (R225). It wakes no core that rests (R500). -/
def requestMode (c : CoreId) (det : Bool) (s : State) : State := s.modCor c (modeRequest det)

/-- Invalidate the branch target buffer (R216). -/
def btbInvalidate (c : CoreId) (s : State) : State := s.modCor c fun k => { k with btb := [], btbMark := [] }

/-- CORE.MODE: DET and BTBINV (R224). -/
def storeMode (c : CoreId) (v : Cell) (s : State) : State :=
  let s1 := requestMode c (v.getLsbD 0) s
  if v.getLsbD 2 then btbInvalidate c s1 else s1

/-- CORE.VBASE of a level; its chain buffers are emptied (R260, R281). -/
def storeVbase (c : CoreId) (l : Level) (v : Cell) (s : State) : State :=
  let b : BitVec 11 := v.extractLsb' 9 11
  emptyChains c (fun x => decide (x = l)) <| s.modCor c fun k => match l with
    | .T => { k with vbaseT := b }
    | .S => { k with vbaseS := b }
    | .M => { k with vbaseM := b }

/-- CORE.BORROW: REFUSED, OWNER and BASE, and CMD (R314 to R318). -/
def storeBorrow (c : CoreId) (v : Cell) (s : State) : State :=
  let owner : BitVec 7 := v.extractLsb' 38 7
  let base : BitVec 7 := v.extractLsb' 10 7
  let s1 := modBorrow c (fun w =>
    let w1 := { w with refused := rw1c w.refused v 45 }
    if w.active then w1 else { w1 with owner := owner, base := base }) s
  match (v.extractLsb' 36 2).toNat with
  | 1 => borrowStart c owner base s1
  | 2 => borrowRelease c s1
  | _ => s1

/-- WDG.CTL: SCOPE from M and the Whistle port, and KICK (R472). -/
def storeWdgCtl (ag : Agent) (l : Level) (c : CoreId) (v : Cell) (s : State) : State :=
  let s1 := if l = .M then modWdg c (fun w => { w with scope := v.getLsbD 3 }) s else s
  if v.getLsbD 2 then watchdogKick ag l c s1 else s1

/-- CORE.XFLOOR; the field of cause 0x0A keeps 0b10 (R261). -/
def floorCell (v : Cell) : BitVec 32 := (v.extractLsb' 0 32 &&& 0xFFF3FFFF#32) ||| 0x00080000#32

/-- The registers of a core that a write only replaces (R77, R253, R301, R467). -/
def storeCoreField (n : Nat) (v : Cell) (k : Core) : Core :=
  match n with
  | 2 => { k with w12 := v.getLsbD 0 }
  | 7 => { k with xfloor := floorCell v }
  | 8 => { k with mlo := v.extractLsb' 8 7, slo := v.extractLsb' 0 7 }
  | 10 => { k with leashM := v.extractLsb' 24 12, leashS := v.extractLsb' 12 12, leashT := v.extractLsb' 0 12 }
  | 11 => { k with leashTrap := v.extractLsb' 0 3 }
  | 15 => { k with brkhalt := v.getLsbD 0 }
  | 16 => { k with csValid := rw1c k.csValid v 8 }
  | 19 => { k with txlost := rw1c k.txlost v 2 }
  | n =>
    if 20 ≤ n ∧ n % 2 = 0 then { k with cmpa := k.cmpa.set ((n - 20) / 2) (v.extractLsb' 0 36) }
    else if 20 ≤ n then { k with cmpb := k.cmpb.set ((n - 20) / 2) v }
    else k

/-- A store to a core register (R502). -/
def storeCore (ag : Agent) (l : Level) (c : CoreId) (n : Nat) (v : Cell) (s : State) : State :=
  match n with
  | 1 => storeMode c v s
  | 3 => if v.getLsbD 0 then coreReset ag c s else s
  | 4 => storeVbase c .T v s
  | 5 => storeVbase c .S v s
  | 6 => storeVbase c .M v s
  | 9 => storeBorrow c v s
  | 12 => watchdogConfigure c v s
  | 13 => storeWdgCtl ag l c v s
  | 17 => txStore c v s
  | n => s.modCor c (storeCoreField n v)

/-! ### Thread registers -/

/-- A write of a stack's limits: it moves no data (R235). -/
def storeLimits (v : Cell) (k : Stk) : Stk :=
  { k with lo := v.extractLsb' 24 17, hi := v.extractLsb' 0 17 }

/-- A write of a stack's pointers: ignored at the running level; otherwise the resident cells are first spilled to the old SP
(R235). -/
def storePointers (t : ThreadId) (l : Level) (rs : Bool) (v : Cell) (s : State) : State :=
  if l = curLevel s t then s
  else
    let s1 := spillMany t l rs (s.stk t l rs).res.length s
    s1.setStk t l rs { s1.stk t l rs with base := v.extractLsb' 24 17, sp := v.extractLsb' 0 17 }

/-- A write of a stack register in a thread that stands otherwise than it does, by a chain at the RETI it has unstacked from (R282):
what the restore found resident at another level lies in its area already. -/
def storeUnstacked (l : Level) (rs pointers : Bool) (v : Cell) (a : Arch) : Arch :=
  let k := (a.stk l).get rs
  let put := fun (x : Stk) => a.setStk l ((a.stk l).set rs x)
  if pointers = false then put (storeLimits v k)
  else if l = a.level then a
  else put { k with base := v.extractLsb' 24 17, sp := v.extractLsb' 0 17, res := [] }

/-- A store to a stack register of a thread: n counts from THR.OSLIM.T (R233, R502). -/
def storeStack (t : ThreadId) (n : Nat) (v : Cell) (s : State) : State :=
  let l : Level := if n < 4 then .T else if n < 8 then .S else .M
  let rs := decide (2 ≤ n % 4)
  let s1 := if n % 2 = 0 then s.setStk t l rs (storeLimits v (s.stk t l rs)) else storePointers t l rs v s
  if (s.thr t).unstack.isSome then
    s1.modThr t fun th => { th with unstack := th.unstack.map (storeUnstacked l rs (decide (n % 2 = 1)) v) }
  else s1

/-- THR.SEMCTL: GROUP only from M and the Whistle port (R142). -/
def storeSemctl (l : Level) (v : Cell) (th : Thread) : Thread :=
  { th with
    semGroup := if l = .M then v.extractLsb' 44 4 else th.semGroup
    semTimeout := v.extractLsb' 0 28 }

/-- THR.PRED and THR.IPL: the latter is not T's to write (R56, R272). -/
def storeArchField (l : Level) (n : Nat) (v : Cell) (a : Arch) : Arch :=
  if n = 3 then { a with p3 := v.getLsbD 3, p2 := v.getLsbD 2, p1 := v.getLsbD 1 }
  else if l = .T then a
  else { a with ipl := v.extractLsb' 0 4 }

/-- The registers of a thread that a write only replaces or clears bits of (R41, R56, R126, R142, R237, R254, R272, R310). -/
def storeThreadField (l : Level) (n : Nat) (v : Cell) (th : Thread) : Thread :=
  match n with
  | 2 => { th with arith := { dzTrap := v.getLsbD 2, dz := v.getLsbD 1, ov := v.getLsbD 0 } }
  | 3 => { th with arch := storeArchField l 3 v th.arch, unstack := th.unstack.map (storeArchField l 3 v) }
  | 4 => { th with arch := storeArchField l 4 v th.arch, unstack := th.unstack.map (storeArchField l 4 v) }
  | 7 => { th with sfar := { th.sfar with valid := rw1c th.sfar.valid v 47, more := rw1c th.sfar.more v 46 } }
  | 8 => storeSemctl l v th
  | 9 => { th with grant := v.getLsbD 0 }
  | 10 => { th with leash := { th.leash with ovr := rw1c th.leash.ovr v 13, clamp := rw1c th.leash.clamp v 12 } }
  | 33 => { th with dwloT := v.extractLsb' 0 36 }
  | 34 => { th with dwhiT := v.extractLsb' 0 36 }
  | 35 => { th with dwloS := v.extractLsb' 0 36 }
  | 36 => { th with dwhiS := v.extractLsb' 0 36 }
  | _ => th

/-- THR.EVENT: EV is cleared, then SET sets it and raises the thread's source (R175, R7). -/
def storeEvent (t : ThreadId) (v : Cell) (s : State) : State :=
  let s1 := s.modThr t fun th => { th with ev := rw1c th.ev v 0 }
  if v.getLsbD 1 then signalEvent t s1 else s1

/-- A store to a thread register (R502). -/
def storeThread (ag : Agent) (l : Level) (t : ThreadId) (n : Nat) (v : Cell) (s : State) : State :=
  if 21 ≤ n ∧ n ≤ 32 then storeStack t (n - 21) v s
  else match n with
    | 0 => if v.getLsbD 11 then threadReset ag t s else s
    | 6 => storeEvent t v s
    | 39 => if isWhistle ag then dpcWrite t (v.extractLsb' 0 20) s else s
    | n => s.modThr t (storeThreadField l n v)

/-! ### The store -/

/-- A store to a register takes effect, from a writer with a level's rights (R7, R502). -/
def regStore (ag : Agent) (l : Level) (r : RegRef) (v : Cell) (s : State) : State :=
  if readOnly r then s
  else match r with
    | .tile k => storeTile ag k v s
    | .core c n => storeCore ag l c n v s
    | .thread t n => storeThread ag l t n v s

/-- May the Whistle port reach the tile in the life cycle's state (R488)? -/
def whistleOpen (s : State) : Bool :=
  decide (s.lc.stateOut ≠ 2 ∧ s.lc.stateOut ≠ 4) || (decide (s.lc.stateOut = 2) && s.lc.unlocked)

/-- The register a write names: a whole cell at the register's address (R497). -/
def writeTo (ag : Agent) (a : Nat) : Option RegRef :=
  if a % 6 = 0 then regAt (match ag with
    | .thread t => some t
    | .whistle => none) a
  else none

/-- May a writer store to a register now (R488, R498, R499)? -/
def writerMay (ag : Agent) (r : RegRef) (v : Cell) (s : State) : Bool :=
  match ag with
  | .thread t => mayStore (curLevel s t) t v r
  | .whistle => whistleOpen s

/-- Does a reset of a kind (R485) keep a register of its scope whole, by the table of R503? One of which it keeps a field only it covers
(DESIGN CHOICE, notes/assumptions/103.md). -/
def resetKeeps (kind : BitVec 3) : RegRef → Bool
  | .tile k =>
    (decide (kind = 1 ∨ kind = 2) && decide (k = 7 ∨ (450 ≤ k ∧ k ≤ 456))) ||
      (decide (kind = 2) && decide (k = 6 ∨ (72 ≤ k ∧ k ≤ 74) ∨ (128 ≤ k ∧ k ≤ 213)))
  | .core _ k => decide (kind = 2 ∨ kind = 3) && decide (k = 15 ∨ k = 16 ∨ 20 ≤ k)
  | .thread _ k => decide (kind = 4) && decide ((21 ≤ k ∧ k ≤ 32 ∧ k % 2 = 1) ∨ (33 ≤ k ∧ k ≤ 36))

/-- The kind of the reset of tile scope or wider under way: held, or waiting for its OWNER_RESET_ACK (R484). -/
def State.bootKind (s : State) : Option (BitVec 3) :=
  match s.boot with
  | .run => none
  | .held kind => some kind
  | .ackWait kind => some kind

/-- Is a register covered by a reset that has begun and whose OWNER_RESET is not yet acknowledged (R484, R503)? -/
def resetCovers (s : State) (r : RegRef) : Bool :=
  match s.bootKind with
  | some kind => !resetKeeps kind r
  | none => match r with
    | .tile _ => false
    | .core c _ => (s.cor c).inReset.isSome && !resetKeeps 3 r
    | .thread u _ =>
      (s.cor u.core).inReset.isSome || ((s.ownq ++ s.ownWait.toList).contains (.thread u) && !resetKeeps 4 r)

/-- REGISTER_WRITE: a write reaches a register. One that no rule lets through changes nothing.
DEDUCED (notes/assumptions/73.md). `atReset`: it comes in the first cycle of a reset, which discards it where it covers
the register (R504; DESIGN CHOICE, notes/assumptions/103.md). -/
def registerWrite (ag : Agent) (a : BitVec 36) (v : Cell) (atReset : Bool) (s : State) : State :=
  match writeTo ag a.toNat with
  | some r =>
    if s.boot = .run ∧ writerMay ag r v s ∧ (atReset && resetCovers s r) = false then regStore ag (agentLevel s ag) r v s else s
  | none => s
def execRegisterWrite (ag : Agent) (addr : BitVec 36) (v : Cell) (s : State) (atReset : Bool := false) :
    Host.Outcome State Fault Refusal := .next (registerWrite ag addr v atReset s)

/-- TERNARY_COMMIT: a write of LKP.TRES (R412). -/
def execTernaryCommit (v : Cell) (s : State) : Host.Outcome State Fault Refusal := .next (ternaryCommit v s)

/-- STREAM_RESET: a write of SEQ.CFG (R415). -/
def execStreamReset (v : Cell) (s : State) : Host.Outcome State Fault Refusal := .next (streamReset v s)

/-- TERMINAL_TRANSMIT: a store to DBG.TXD (R469). -/
def execTerminalTransmit (c : CoreId) (v : Cell) (s : State) : Host.Outcome State Fault Refusal := .next (txStore c v s)

/-- BTB_INVALIDATE: CORE.MODE.BTBINV (R216). -/
def execBtbInvalidate (c : CoreId) (s : State) : Host.Outcome State Fault Refusal := .next (btbInvalidate c s)

/-- MODE_SWITCH_REQUEST: a write of CORE.MODE.DET (R225). -/
def execModeSwitchRequest (c : CoreId) (det : Bool) (s : State) : Host.Outcome State Fault Refusal :=
  .next (requestMode c det s)

/-- MODE_SWITCH_COMPLETE: once the core has quiesced, ACT takes DET and the next cycle is c₀; a borrow, and a rest level, hold off deterministic mode (R225, R315, R429).
The ledger's bookings and the tokens in use stay as they are (R371; DESIGN CHOICE, notes/assumptions/146.md). -/
def modeSwitchComplete (c : CoreId) (s : State) : State :=
  let k := s.cor c
  if k.switching ∧ quiesced s c ∧ (k.det = false ∨ (k.borrow.active = false ∧ k.rest = .run ∧ k.waking = false)) then
    s.modCor c fun x => { x with act := x.det, switching := false, c0 := s.fetch.cycle }
  else s
def execModeSwitchComplete (c : CoreId) (s : State) : Host.Outcome State Fault Refusal := .next (modeSwitchComplete c s)

end Sys2Proof.Machine
end

