-- ==== Sys2Proof/Machine/Drain.lean ====
section
/-! DEFINITION. What goes on beside the words of a core: drains of the store buffer, store faults, cache fills, the spill engine and
the keep store's writes (R124 to R127, R193, R205, R279, R307, R322). -/

namespace Sys2Proof.Machine

/-! ### Drains (R124, R125) -/

/-- Change a buffered store of a core, the oldest of its kind: a thread may have stored the same bytes twice. -/
def setEntry (c : CoreId) (e e' : SbEntry) (s : State) : State :=
  s.modCor c fun k => { k with sb := k.sb.replace e e' }

/-- A store to host memory is sent to the fabric, once a tag is free (R320, R479). -/
def drainHost (t : ThreadId) (e : SbEntry) (s : State) : State :=
  match threadSend s t (.store t) e.ea.toNat e.bytes.length (some e.bytes) with
  | some (tag, s1) => setEntry t.core e { e with phase := .sent tag } s1
  | none => s

/-- A store to the keep store: refused late in SCRAP, and otherwise one write at a time (R321, R322). -/
def drainKeep (t : ThreadId) (e : SbEntry) (s : State) : State :=
  if keepRefuses s then lateRefusal t 2 e.ea (keepRefused (dropEntry t.core e s))
  else if keepFree s then keepStart (.thread t) e.ea.toNat e.bytes (setEntry t.core e { e with phase := .keep } s)
  else s

/-- A store to a register takes effect. -/
def drainReg (t : ThreadId) (e : SbEntry) (s : State) : State :=
  let s1 := dropEntry t.core e s
  match regAt (some t) e.ea.toNat with
  | some r => regStore (.thread t) e.lvl r (bytesCell e.bytes) s1
  | none => s1

/-- A store to storage of the tile; the scratchpad of a core that is fenced or power-gated refuses it late (R125, R302), and one whose
visit has been broken off edits nothing (R16). -/
def drainWrite (t : ThreadId) (r : Region) (e : SbEntry) (s : State) : State :=
  let s1 := dropEntry t.core e s
  if (spadOf t.core r).any (spadGone s) then lateRefusal t 2 e.ea s1
  else if e.stray ∧ r = .frame then s1
  else writeTarget t r (viaOf s t e.lvl r) e.ea.toNat e.bytes s1

/-- A buffered store goes to its target. A parity error in the entry is a machine check of the core (R215, R284). -/
def drainEntry (t : ThreadId) (e : SbEntry) (s : State) : State :=
  if e.par ≠ 0 then fenceCore t.core 0 s
  else match spanRegion (some t) e.ea.toNat e.bytes.length with
    | some .host => drainHost t e s
    | some .keep => drainKeep t e s
    | some .reg => drainReg t e s
    | some r => drainWrite t r e s
    | none => dropEntry t.core e s

/-- What waited for a store goes on: block instructions, what a debugger runs, and outside a debug halt the answers that were
held. -/
def afterDrain (s : State) : State :=
  let s1 := stepRetry (resumeBlocks s)
  if s1.frozen then s1 else replayHeld s1

/-- How many of thread u's next words had read their guards when a store of thread t drained: none where the deterministic core holds
them for it (R118), and at most a thread's share of the reorder buffer (R211). One that retires in that cycle had. -/
def guardsRead (t u : ThreadId) (meet : Bool) (issued : Nat) (s : State) : Nat :=
  if t = u ∧ (s.cor u.core).act then 0 else min 8 (if meet then max 1 issued else issued)

/-- The guards of n next words have the predicates of `a`, but for those that an earlier drain found read already (R201). -/
def keepOldPreds (n : Nat) (a : Arch) (l : List OldPred) : List OldPred :=
  let k := n - (l.map (·.left)).sum
  if k = 0 then l else l ++ [{ left := k, p1 := a.p1, p2 := a.p2, p3 := a.p3 }]

/-- A buffered store of a thread has drained. In the cycle in which the next word of the thread it names retires, what it wrote to
THR.ARITH or THR.PRED stands against that word (R57, R116); a guard that was read by that cycle has the predicates as they stood `before`
the drain (R201, R226; DEDUCED, notes/assumptions/140.md). -/
def noteMeet (t : ThreadId) (e : SbEntry) (meet : Bool) (issued : Nat) (before s : State) : State :=
  match regAt (some t) e.ea.toNat with
  | some (.thread u 2) => s.modThr u fun th => { th with arithMet := th.arithMet || meet }
  | some (.thread u 3) => s.modThr u fun th =>
      { th with
        predMet := th.predMet || meet
        oldPreds := keepOldPreds (guardsRead t u meet issued before) (before.thr u).arch th.oldPreds }
  | _ => s

/-- Does a reset discard a store that drains to a register in the reset's first cycle (R504)? -/
def resetTakes (t : ThreadId) (e : SbEntry) (s : State) : Bool :=
  match spanRegion (some t) e.ea.toNat e.bytes.length, regAt (some t) e.ea.toNat with
  | some .reg, some r => resetCovers s r
  | _, _ => false

/-- STORE_DRAIN: the thread's oldest buffered store drains, unless it has been sent already (R124). `meet`: it drains in the cycle in
which the next word of the thread whose THR.ARITH or THR.PRED it writes retires (R57, R116). `atReset`: it drains in the first cycle of a thread or core
reset, which discards it where it goes to a register that the reset covers (R504; DESIGN CHOICE, notes/assumptions/103.md). `issued`: as many
next words of the thread whose THR.PRED it writes have been at I by that cycle (R201, R226). -/
def storeDrain (t : ThreadId) (meet atReset : Bool) (s : State) (issued : Nat := 0) : State :=
  match storesOf s t with
  | e :: _ =>
    if s.boot = .run ∧ e.phase = .waiting then
      afterDrain (if atReset && resetTakes t e s then dropEntry t.core e s
        else (if (meet ∨ issued ≠ 0) ∧ e.par = 0 then noteMeet t e meet issued s else id) (drainEntry t e s))
    else s
  | [] => s
def execStoreDrain (t : ThreadId) (s : State) (meet : Bool := false) (atReset : Bool := false) (issued : Nat := 0) :
    Host.Outcome State Fault Refusal := .next (storeDrain t meet atReset s issued)

/-- STORE_FAULT: the oldest late refusal is taken at the thread's next boundary, after an interrupt that waits there (R125, R159,
R279). A wait that ends there ends first. -/
def storeFault (t : ThreadId) (s : State) : State :=
  match (s.thr t).sfPend with
  | [] => s
  | (cause, ea) :: rest =>
    if atBoundary s t = false then s
    else if atBoundary (wake t s) t = false then wake t s
    else
      takeAtBoundary t (fun s1 => takeException t { cause := 4, sub := cause.setWidth 4, addr := ea }
        (s1.modThr t fun th => { th with sfPend := rest })) (beginWord t (wake t s))
def execStoreFault (t : ThreadId) (s : State) : Host.Outcome State Fault Refusal := .next (storeFault t s)

/-! ### Cache fills (R193, R307) -/

/-- A stored byte as a line holds it: with a fresh code, or failing its code where the target's byte does (R305).
DEDUCED (notes/assumptions/26.md). -/
def lineByte (b : StoredByte) : StoredByte :=
  match classify b with
  | .clear => encByte 0
  | .good d => encByte d
  | .ce d => encByte d
  | _ => poisonByte

/-- DCACHE_FILL: a fill of a shared-SRAM line that is in progress completes (R307); in deterministic mode it changes no line
(R129). -/
def dcacheFill (c : CoreId) (line : Nat) (s : State) : State :=
  if (s.cor c).dfills.contains (line, none) ∧ lineOk line then
    let bytes := (span line 48).map fun a => lineByte (rawByte s .normal a)
    endFill c (line, none) bytes s
  else s
def execDcacheFill (c : CoreId) (line : Nat) (s : State) : Host.Outcome State Fault Refusal := .next (dcacheFill c line s)

/-- May a core's units beside its words work: normal mode, in service, no debug halt? -/
def unitsRun (s : State) (c : CoreId) : Bool := countsRun s && coreUp s c && !(s.cor c).act

/-- ICACHE_FILL: a miss fills the whole line from the shared program store (R193). -/
def icacheFill (c : CoreId) (a : WAddr) (s : State) : State :=
  if unitsRun s c ∧ inSharedStore a ∧ iline (s.cor c) a.toNat = none then fillIline s c a.toNat else s
def execIcacheFill (c : CoreId) (waddr : WAddr) (s : State) : Host.Outcome State Fault Refusal := .next (icacheFill c waddr s)

/-! ### The spill engine (R205) -/

/-- Resident cells or entries above which the engine spills in the background. -/
def spillMark (rs : Bool) : Nat := if rs then 20 else 12

/-- Does a core's engine have a cell of a level that its thread does not run to spill (rule 2 of R205)? -/
def otherLevelWaits (s : State) (c : CoreId) : Bool :=
  (coreThreads c).any fun t => [false, true].any fun rs => [Level.T, .S, .M].any fun l =>
    decide (l ≠ curLevel s t) && !(s.stk t l rs).res.isEmpty

/-- Does it have a background spill to make (rule 3 of R205)? -/
def markWaits (s : State) (c : CoreId) : Bool :=
  (coreThreads c).any fun t => [false, true].any fun rs => decide (spillMark rs < residents s t rs)

/-- One spill: of a level that does not run, or, when no core's thread has such a cell, of the running level above the mark (R205).
DEDUCED (notes/assumptions/65.md). -/
def engineSpill (t : ThreadId) (l : Level) (rs : Bool) (s : State) : State :=
  if unitsRun s t.core ∧ (s.stk t l rs).res ≠ [] ∧
      (l ≠ curLevel s t ∨ (otherLevelWaits s t.core = false ∧ spillMark rs < residents s t rs)) then spillOne t l rs s else s
def execSpillEngineSpill (t : ThreadId) (l : Level) (rs : Bool) (s : State) : Host.Outcome State Fault Refusal :=
  .next (engineSpill t l rs s)

/-- One background fill of the running level: fewer than 4 cells are resident, the spill area is not empty, and the core's engine
has no spill to make (R205). -/
def engineFill (t : ThreadId) (rs : Bool) (s : State) : State :=
  let l := curLevel s t
  let k := s.stk t l rs
  if unitsRun s t.core ∧ otherLevelWaits s t.core = false ∧ markWaits s t.core = false ∧
      k.res.length < 4 ∧ (k.res.length : Int) < k.depth ∧ residents s t rs < windowSize rs ∧
      storeTouches s t (spadBase t.core.val + (k.sp.toNat - 6)) 6 = false then fillOne t l rs s else s
def execSpillEngineFill (t : ThreadId) (rs : Bool) (s : State) : Host.Outcome State Fault Refusal := .next (engineFill t rs s)

/-! ### Answers from outside (R479, R480) -/

/-- FAB_RESPONSE (R479). -/
def execFabResponse (tag : BitVec 8) (data : BitVec 384) (st : BitVec 2) (s : State) : Host.Outcome State Fault Refusal :=
  .next (stepRetry (fabAnswer tag data st s))

/-- FABRIC_TIMEOUT (R479). -/
def execFabricTimeout (tag : BitVec 8) (s : State) : Host.Outcome State Fault Refusal := .next (stepRetry (fabTimeout tag s))

/-- OWNER_RESET_ACK (R480, R484, R487). -/
def execOwnerResetAck (rom : Bool) (s : State) : Host.Outcome State Fault Refusal := .next (stepRetry (ownerAck rom s))

/-! ### The keep store (R322) -/

/-- A thread's keep-store write has been performed: its buffered store is accepted, or its block step ends (R125, R152). -/
def keepAccepted (t : ThreadId) (s : State) : State :=
  match (s.cor t.core).sb.find? fun e => decide (e.thread = t ∧ e.phase = .keep), (s.thr t).pend with
  | some e, _ => dropEntry t.core e s
  | none, .block b =>
    match ensureCur t false 3 s with
    | some s1 => blockAnswered t b (dataHits s1 t true b.a.toNat b.buf.length) s1 (.ended (stepDone b b.buf) s1)
    | none => s
  | none, _ => s

/-- The owner of a keep-store write goes on when its last cell has been written. -/
def keepOwnerDone (o : KeepOwner) (s : State) : State :=
  if keepHas s o then s
  else match o with
    | .thread t => keepAccepted t s
    | .whistle => whiResult 0 0 s
    | .lifeCycle => lcNext s
    | .orphan => s

/-- KEEP_STORE_WRITE_DONE: the cell write in progress ends (R322, R323). The keep store works with the core clock. -/
def keepStoreWriteDone (s : State) : State :=
  match s.ks.todo with
  | [] => s
  | j :: _ => if uncoreRuns s then afterDrain (keepOwnerDone j.owner (keepCellDone s)) else s
def execKeepStoreWriteDone (s : State) : Host.Outcome State Fault Refusal := .next (keepStoreWriteDone s)

end Sys2Proof.Machine
end

