-- ==== Sys2Proof/Machine/Whistle.lean ====
section
/-! DEFINITION. The Whistle port: lows on the line, frames, the accesses they make, the terminal and the AUTH exchange (R448 to
R457, R469, R492). -/

namespace Sys2Proof.Machine

/-! ### Frames (R451, R452) -/

/-- The CRC over a header and the data (R451). -/
def crcOf (header : BitVec 8) (data : Cell) : BitVec 8 := crc8 (header :: cellBytes data)

/-- The CRC of a frame's header and data. -/
def frameCrc (cmd : BitVec 4) (fr : Frame) : BitVec 8 := crcOf (cmd ++ fr.arg) fr.data

/-- The 64 cells of a frame, first cell in the highest bit: header, data, CRC (R451). -/
def frameCells (header : BitVec 8) (data : Cell) (crc : BitVec 8) : BitVec 64 := header ++ data ++ crc

/-- A command frame's cells (R452). -/
def commandCells (cmd : BitVec 4) (fr : Frame) : BitVec 64 := frameCells (cmd ++ fr.arg) fr.data fr.crc

/-- A response frame's cells, with its CRC (R451, R454). -/
def responseCells (r : WhiResult) : BitVec 64 := frameCells (r.status ++ r.cmd) r.data (crcOf (r.status ++ r.cmd) r.data)

/-- Commands of R452. -/
def cmdIdent : BitVec 4 := 0
def cmdAddr : BitVec 4 := 1
def cmdRd : BitVec 4 := 2
def cmdRdi : BitVec 4 := 3
def cmdWr : BitVec 4 := 4
def cmdPoll : BitVec 4 := 5
def cmdTermw : BitVec 4 := 6
def cmdTermr : BitVec 4 := 7
def cmdAuth : BitVec 4 := 8

/-- The other status codes of R454. -/
def whiWait : BitVec 4 := 1
def whiDataErr : BitVec 4 := 3
def whiUnmapped : BitVec 4 := 4
def whiAlign : BitVec 4 := 5
def whiLocked : BitVec 4 := 7
def whiBadCmd : BitVec 4 := 8
def whiCrcErr : BitVec 4 := 9
def whiFull : BitVec 4 := 10
def whiEmpty : BitVec 4 := 11
def whiBusy : BitVec 4 := 12

/-- Is an access width one of the list of R452? -/
def widthOk (arg : BitVec 4) : Bool := [1, 2, 3, 4, 6].contains arg.toNat

/-- The format of a command (R452, R492). DEDUCED (notes/assumptions/48.md). -/
def formatOk (cmd : BitVec 4) (fr : Frame) : Bool :=
  let zero := decide (fr.data = 0)
  match cmd.toNat with
  | 0 => zero
  | 1 => !upperBits fr.data
  | 2 => widthOk fr.arg && !upperBits fr.data
  | 3 => widthOk fr.arg && zero
  | 4 => widthOk fr.arg
  | 5 => zero
  | 6 => true
  | 7 => zero
  | 8 => decide (fr.arg = 2 ∨ fr.arg = 3) || (decide (fr.arg.toNat ≤ 5) && zero)
  | _ => false

/-! ### Answers (R454) -/

/-- The tile sends a response frame. -/
def respond (cmd status : BitVec 4) (data : Cell) (s : State) : State :=
  { s with ports := { s.ports with whistle := some { status := status, data := data, cmd := cmd }, presence := false } }

/-- A command ends with its answer, which POLL repeats until the next command; one that meets a pending operation leaves the
operation's result to POLL. -/
def whiEnd (cmd status : BitVec 4) (data : Cell) (s : State) : State :=
  let s1 := if s.whi.op.isSome then s
    else { s with whi := { s.whi with last := { status := status, data := data, cmd := cmd } } }
  respond cmd status data s1

/-- A command is answered WAIT; its operation is pending. -/
def whiPend (op : WhiOp) (s : State) : State := respond op.cmd whiWait 0 { s with whi := { s.whi with op := some op } }

/-- Did an access with a status reach its target (R452)? -/
def reached (status : BitVec 4) : Bool := decide (status = whiOk ∨ status = 2 ∨ status = whiDataErr ∨ status = whiRefused)

/-- An access ends with its answer: the link address moves when it reached its target. DEDUCED (notes/assumptions/47.md). -/
def accessEnd (cmd : BitVec 4) (next : BitVec 36) (status : BitVec 4) (data : Cell) (s : State) : State :=
  whiEnd cmd status data (if reached status then { s with whi := { s.whi with link := next } } else s)

/-! ### Accesses (R455 to R457) -/

/-- The checks of R455 on n bytes at an address: the region, or the status that answers. -/
def whiCheck (s : State) (write : Bool) (a n : Nat) : Except (BitVec 4) Region :=
  let k : AccKind := if write then .store else .load
  match spanRegion none a n with
  | none => .error whiUnmapped
  | some r =>
    if r = .own ∨ r = .frame ∨ (r = .reg ∧ n ≠ 6) then .error whiUnmapped
    else if (spadOf 0 r).any (spadGone s) then .error whiRefused
    else if forbidden s 0 k r n then .error whiRefused
    else if r = .keep ∧ write ∧ a < 0xF0000C00 then .error whiRefused
    else if aligned 0 k r a n = false then .error whiAlign
    else .ok r

/-- The lane masks of DATAERR: the bytes of a class, by their place in the access (R456). -/
def byteMask (ks : List ByteClass) (c : ByteClass) : BitVec 6 :=
  (List.range 6).foldl (fun acc j => if ks.getD j .clear = c then acc ||| (1#6 <<< j) else acc) 0

/-- A byte of a Whistle read: a peek, which the borrow buffer serves where it stands in (R317, R456). -/
def peekClass (s : State) (a : Nat) : ByteClass := if readsZero s a then .clear else classify (rawByte s .normal a)

/-- A Whistle read of storage of the tile (R456). -/
def peekResult (s : State) (a n : Nat) : BitVec 4 × Cell :=
  let ks := (span a n).map (peekClass s)
  let ue := byteMask ks .ue
  let po := byteMask ks .poison
  if ue = 0 ∧ po = 0 then
    (whiOk, bytesCell (ks.map fun k => match k with
      | .good d => d
      | .ce d => d
      | _ => 0))
  else (whiDataErr, 0#36 ++ po ++ ue)

/-- The owner ID that a Whistle access carries (R320). -/
def whiOwner (s : State) : BitVec 17 := s.node ++ 0#7

/-- The port's request at the fabric; none while no tag is free, or while the owner whose ID it carries, thread 0, is in the scope of
an OWNER_RESET that awaits its acknowledgement (R320, R480). -/
def whiRequest (q : WhiAsk) (s : State) : Option (BitVec 8 × State) :=
  if ownerHeld s 0 then none else fabSend s .whistle (whiOwner s) q.addr q.len q.wdata q.wdata.isNone

/-- Send an access to the fabric; one that may not be sent yet is kept. -/
def whiSend (q : WhiAsk) (op : WhiOp) (s : State) : State :=
  match whiRequest q s with
  | some (_, s1) => { s1 with whi := { s1.whi with op := some { op with ask := none } } }
  | none => { s with whi := { s.whi with op := some { op with ask := some q } } }

/-- A pending access of host memory. -/
def whiHost (cmd : BitVec 4) (next : BitVec 36) (q : WhiAsk) (s : State) : State :=
  let op : WhiOp := { cmd := cmd, next := next, ask := none, result := none }
  whiSend q op (respond cmd whiWait 0 s)

/-- A read of n bytes (R452). -/
def whiRead (cmd : BitVec 4) (a : BitVec 36) (n : Nat) (s : State) : State :=
  let next := a + BitVec.ofNat 36 n
  match whiCheck s false a.toNat n with
  | .error st => accessEnd cmd next st 0 s
  | .ok .host => whiHost cmd next { addr := a.toNat, len := n, wdata := none } s
  | .ok .reg => match regAt none a.toNat with
    | some r => accessEnd cmd next whiOk (regPeek s r) s
    | none => accessEnd cmd next whiUnmapped 0 s
  | .ok _ =>
    let v := peekResult s a.toNat n
    accessEnd cmd next v.1 v.2 s

/-- A write to the keep store: refused in SCRAP, and otherwise pending until it has been performed (R321, R322). -/
def whiKeep (cmd : BitVec 4) (next a : BitVec 36) (bs : List Byte) (s : State) : State :=
  if keepRefuses s then accessEnd cmd next whiRefused 0 (keepRefused s)
  else keepStart .whistle a.toNat bs (whiPend { cmd := cmd, next := next, ask := none, result := none } s)

/-- A write of n bytes at the link address (R452). `atReset`: it comes in the first cycle of a reset, which discards it
where it covers the register (R504; DESIGN CHOICE, notes/assumptions/103.md). -/
def whiWrite (n : Nat) (v : Cell) (atReset : Bool) (s : State) : State :=
  let a := s.whi.link
  let next := a + BitVec.ofNat 36 n
  let bs := natBytes n v.toNat
  match whiCheck s true a.toNat n with
  | .error st => accessEnd cmdWr next st 0 s
  | .ok .host => whiHost cmdWr next { addr := a.toNat, len := n, wdata := some bs } s
  | .ok .keep => whiKeep cmdWr next a bs s
  | .ok .reg => match regAt none a.toNat with
    | some r => accessEnd cmdWr next whiOk 0 (if atReset && resetCovers s r then s else regStore .whistle .M r v s)
    | none => accessEnd cmdWr next whiUnmapped 0 s
  | .ok _ => accessEnd cmdWr next whiOk 0 (writeSpan s .normal a.toNat bs)

/-! ### The terminal (R469) -/

/-- The core that ARG names. -/
def termCore (arg : BitVec 4) : CoreId := ⟨arg.toNat % 16, Nat.mod_lt _ (by decide)⟩

/-- TERMW: DBG.RXD, RXFULL and source 40 + c; FULL while RXFULL stands. -/
def termWrite (c : CoreId) (v : Cell) (s : State) : State :=
  if (s.cor c).rxfull then whiEnd cmdTermw whiFull 0 s
  else whiEnd cmdTermw whiOk 0 (raiseSrc (40 + c.val) (s.modCor c fun k => { k with rxd := v, rxfull := true }))

/-- TERMR: DBG.TXD, and TXFULL clears; EMPTY while there is no cell. -/
def termRead (c : CoreId) (s : State) : State :=
  if (s.cor c).txfull then whiEnd cmdTermr whiOk (s.cor c).txd (s.modCor c fun k => { k with txfull := false })
  else whiEnd cmdTermr whiEmpty 0 s

/-- TERMINAL_RECEIVE: a thread's read of DBG.RXD (R469). -/
def execTerminalReceive (c : CoreId) (s : State) : Host.Outcome State Fault Refusal :=
  .next (readRxd c (returnCell (s.cor c).rxd s))

/-! ### Commands -/

/-- A step of AUTH (R492): answered at once, or pending until ARG 4's check ends. -/
def whiAuth (fr : Frame) (s : State) : State :=
  let r := authStep fr.arg fr.data s
  match r.1 with
  | .now st d => whiEnd cmdAuth st d r.2
  | .later st =>
    whiPend { cmd := cmdAuth, next := s.whi.link, ask := none, result := some { status := st, data := 0, cmd := cmdAuth } } r.2

/-- POLL: the result of the last operation, or WAIT while it is pending (R454). DEDUCED (notes/assumptions/46.md). -/
def whiPoll (s : State) : State :=
  if s.whi.op.isSome then respond cmdPoll whiWait 0 s else respond cmdPoll s.whi.last.status s.whi.last.data s

/-- Carry out a command that has passed the first four tests of R454. -/
def whiRun (cmd : BitVec 4) (fr : Frame) (s : State) (atReset : Bool := false) : State :=
  match cmd.toNat with
  | 0 => whiEnd cmdIdent whiOk (tilePeekLow s 0) s
  | 1 => whiEnd cmdAddr whiOk 0 { s with whi := { s.whi with link := fr.data.extractLsb' 0 36 } }
  | 2 => whiRead cmdRd (fr.data.extractLsb' 0 36) fr.arg.toNat s
  | 3 => whiRead cmdRdi s.whi.link fr.arg.toNat s
  | 4 => whiWrite fr.arg.toNat fr.data atReset s
  | 5 => whiPoll s
  | 6 => termWrite (termCore fr.arg) fr.data s
  | 7 => termRead (termCore fr.arg) s
  | _ => whiAuth fr s

/-- May every life-cycle state carry out a command: IDENT, POLL and AUTH (R454, R488)? -/
def neverLocked (cmd : BitVec 4) : Bool := decide (cmd = cmdIdent ∨ cmd = cmdPoll ∨ cmd = cmdAuth)

/-- The first of the tests 1 to 4 of R454 that fails. -/
def frameFault (cmd : BitVec 4) (fr : Frame) (s : State) : Option (BitVec 4) :=
  if frameCrc cmd fr ≠ fr.crc then some whiCrcErr
  else if formatOk cmd fr = false then some whiBadCmd
  else if s.whi.op.isSome ∧ cmd ≠ cmdIdent ∧ cmd ≠ cmdPoll then some whiBusy
  else if whistleOpen s = false ∧ neverLocked cmd = false then some whiLocked
  else none

/-- Can the port decode frames: the tile is out of a held reset, and its clocks run? DEDUCED (notes/assumptions/49.md). -/
def whiListens (s : State) : Bool :=
  (match s.boot with
    | .held _ => false
    | _ => true) && uncoreRuns s

/-- A frame without a framing error is answered (R454). Nothing is done for a frame whose CRC failed, and POLL keeps its result. -/
def whiFrame (cmd : BitVec 4) (fr : Frame) (s : State) (atReset : Bool := false) : State :=
  if whiListens s = false then s
  else match frameFault cmd fr s with
    | some st => if st = whiCrcErr ∨ cmd = cmdPoll then respond cmd st 0 s else whiEnd cmd st 0 s
    | none => whiRun cmd fr s atReset

/-- IDENT, or a frame of a CMD that no row has, whose format is wrong (R452). DESIGN CHOICE (notes/assumptions/87.md). -/
def execIdent (fr : Frame) (s : State) (cmd : BitVec 4 := 0) : Host.Outcome State Fault Refusal := .next (whiFrame cmd fr s)
/-- ADDR (R452). -/
def execAddrCmd (fr : Frame) (s : State) : Host.Outcome State Fault Refusal := .next (whiFrame cmdAddr fr s)
/-- RD (R452). -/
def execRd (fr : Frame) (s : State) : Host.Outcome State Fault Refusal := .next (whiFrame cmdRd fr s)
/-- RDI (R452). -/
def execRdi (fr : Frame) (s : State) : Host.Outcome State Fault Refusal := .next (whiFrame cmdRdi fr s)
/-- WR (R452). -/
def execWr (fr : Frame) (s : State) (atReset : Bool := false) : Host.Outcome State Fault Refusal :=
  .next (whiFrame cmdWr fr s atReset)
/-- POLL (R454). -/
def execPoll (fr : Frame) (s : State) : Host.Outcome State Fault Refusal := .next (whiFrame cmdPoll fr s)
/-- TERMW (R469). -/
def execTermw (fr : Frame) (s : State) : Host.Outcome State Fault Refusal := .next (whiFrame cmdTermw fr s)
/-- TERMR (R469). -/
def execTermr (fr : Frame) (s : State) : Host.Outcome State Fault Refusal := .next (whiFrame cmdTermr fr s)
/-- AUTH, ARG 0 (R492). -/
def execAuthChallenge (fr : Frame) (s : State) : Host.Outcome State Fault Refusal := .next (whiFrame cmdAuth fr s)
/-- AUTH, ARG 1 (R492). -/
def execAuthNonce (fr : Frame) (s : State) : Host.Outcome State Fault Refusal := .next (whiFrame cmdAuth fr s)
/-- AUTH, ARG 2 and ARG 3 (R492). -/
def execAuthStoreResponse (fr : Frame) (s : State) : Host.Outcome State Fault Refusal := .next (whiFrame cmdAuth fr s)
/-- AUTH, ARG 4 (R492). -/
def execAuthVerify (fr : Frame) (s : State) : Host.Outcome State Fault Refusal := .next (whiFrame cmdAuth fr s)
/-- AUTH, ARG 5 (R492). -/
def execAuthLock (fr : Frame) (s : State) : Host.Outcome State Fault Refusal := .next (whiFrame cmdAuth fr s)

/-- The work of ARG 4 ends (R492). -/
def authWork (op : WhiOp) (s : State) : State :=
  match op.result with
  | some r => if op.cmd = cmdAuth then authEnd r.status s else s
  | none => s

/-- A pending operation's result becomes what POLL returns, and the link address moves under R452. -/
def opDone (op : WhiOp) (r : WhiResult) (s : State) : State :=
  let s1 := authWork op s
  let link := if reached r.status then op.next else s1.whi.link
  { s1 with whi := { s1.whi with link := link, op := none, last := r } }

/-- WHISTLE_OPERATION_END: a pending operation whose result is known ends; one that is still to be sent is sent (R454). -/
def whistleOperationEnd (s : State) : State :=
  match s.whi.op with
  | none => s
  | some op => match op.result, op.ask with
    | some r, _ => opDone op r s
    | none, some q => whiSend q op s
    | none, none => s
def execWhistleOperationEnd (s : State) : Host.Outcome State Fault Refusal := .next (whistleOperationEnd s)

/-! ### Lows on the line (R448 to R450) -/

/-- An operation that a break meets completes, and its result is discarded (R450). -/
def dropOperation (s : State) : State :=
  let s1 := match s.whi.op with
    | some op => authWork op s
    | none => s
  { s1 with
    whi := { s1.whi with op := none }
    fab := { s1.fab with out := s1.fab.out.map fun r => if r.use = .whistle then { r with use := .orphan } else r }
    ks := { s1.ks with todo := s1.ks.todo.map fun j => if j.owner = .whistle then { j with owner := .orphan } else j } }

/-- Does a break have to wake the tile: it rests, and its level is not an emulated one (R450)? With an emulated level nothing wakes, and the
pulse comes at once (DESIGN CHOICE, notes/assumptions/132.md). -/
def breakWakes (s : State) : Bool := decide (s.pwr.rest ≠ .run) && !s.emulates

/-- A break (R450): it attaches the debugger, clears the link address, and is answered with a presence pulse, after a wake where
the tile rests; while a reset is held the port decodes no frame, and the pulse follows the boot. -/
def whistleBreak (s : State) : State :=
  let due := breakWakes s
  let s1 := dropOperation s
  { s1 with
    whi := { s1.whi with link := 0, presenceDue := due }
    dbg := { s1.dbg with attached := true }
    pwr := { s1.pwr with waking := s1.pwr.waking || (due && decide (s.pwr.rest ≠ .off)), req := if due then none else s1.pwr.req }
    ports := { s1.ports with presence := !due && !s.resetHeld } }
def execWhistleBreak (s : State) : Host.Outcome State Fault Refusal := .next (whistleBreak s)

/-- Is a low a reset: from 19.53 µs, and on either reading from 19.04 µs (R448)? -/
def lowResets (ns : Nat) (s : State) : Bool := decide (19530 ≤ ns) || (decide (19040 ≤ ns) && Config.freeBit s.freeCtr)

/-- WHISTLE_RESET: a low of 19.04 µs or more: a tile reset, or a break where the life-cycle state forbids it (R448, R488); a tile that a
pin holds in reset stays so, and no break comes of it. DEDUCED (notes/assumptions/50.md). -/
def whistleReset (ns : Nat) (pins : Pins) (s : State) : State :=
  let s1 := { s with freeCtr := s.freeCtr + 1 }
  if lowResets ns s = false then whistleBreak s1
  else if tileResetMay s .whistle then tileReset .whistle false pins s1
  else if s.resetHeld ∧ whistleResetAllowed s then s1
  else whistleBreak s1
def execWhistleReset (lowNs : Nat) (pins : Pins) (s : State) : Host.Outcome State Fault Refusal :=
  .next (whistleReset lowNs pins s)

/-- FRAME_TIMEOUT: a high of more than 500 ns inside a frame drops the frame, and nothing else (R449). -/
def execFrameTimeout (s : State) : Host.Outcome State Fault Refusal := .next s

/-- FRAMING_ERROR: a low of 45 ns to below 1 µs drops the frame, and nothing else (R448). -/
def execFramingError (s : State) : Host.Outcome State Fault Refusal := .next s

end Sys2Proof.Machine
end

