-- ==== Sys2Proof/Machine/Dispatch.lean ====
section
/-! DEFINITION. The meaning of every command: one arm per constructor of Instr. -/

namespace Sys2Proof.Machine

/-- A command's effect on everything but the queue. -/
def exec (i : Instr) (s : State) : Host.Outcome State Fault Refusal :=
  match i with
  | .bkpt t g => Sys2Proof.Machine.execBkpt t g s
  | .dup t g => Sys2Proof.Machine.execDup t g s
  | .drop t g => Sys2Proof.Machine.execDrop t g s
  | .swap t g => Sys2Proof.Machine.execSwap t g s
  | .over t g => Sys2Proof.Machine.execOver t g s
  | .rot t g => Sys2Proof.Machine.execRot t g s
  | .nip t g => Sys2Proof.Machine.execNip t g s
  | .tuck t g => Sys2Proof.Machine.execTuck t g s
  | .ddup t g => Sys2Proof.Machine.execDdup t g s
  | .ddrop t g => Sys2Proof.Machine.execDdrop t g s
  | .dswap t g => Sys2Proof.Machine.execDswap t g s
  | .pick t g n => Sys2Proof.Machine.execPick t g n s
  | .lit t g n => Sys2Proof.Machine.execLit t g n s
  | .litx t g b => Sys2Proof.Machine.execLitx t g b s
  | .add t g => Sys2Proof.Machine.execAdd t g s
  | .sub t g => Sys2Proof.Machine.execSub t g s
  | .mul t g => Sys2Proof.Machine.execMul t g s
  | .muld t g => Sys2Proof.Machine.execMuld t g s
  | .div t g => Sys2Proof.Machine.execDiv t g s
  | .divu t g => Sys2Proof.Machine.execDivu t g s
  | .mod t g => Sys2Proof.Machine.execMod t g s
  | .modu t g => Sys2Proof.Machine.execModu t g s
  | .neg t g => Sys2Proof.Machine.execNeg t g s
  | .abs t g => Sys2Proof.Machine.execAbs t g s
  | .andW t g => Sys2Proof.Machine.execAndW t g s
  | .orW t g => Sys2Proof.Machine.execOrW t g s
  | .xorW t g => Sys2Proof.Machine.execXorW t g s
  | .notW t g => Sys2Proof.Machine.execNotW t g s
  | .shl t g => Sys2Proof.Machine.execShl t g s
  | .shr t g => Sys2Proof.Machine.execShr t g s
  | .sar t g => Sys2Proof.Machine.execSar t g s
  | .rol t g => Sys2Proof.Machine.execRol t g s
  | .clz t g => Sys2Proof.Machine.execClz t g s
  | .popc t g => Sys2Proof.Machine.execPopc t g s
  | .bswap2 t g => Sys2Proof.Machine.execBswap2 t g s
  | .bswap3 t g => Sys2Proof.Machine.execBswap3 t g s
  | .bswap4 t g => Sys2Proof.Machine.execBswap4 t g s
  | .bswap6 t g => Sys2Proof.Machine.execBswap6 t g s
  | .ext t g => Sys2Proof.Machine.execExt t g s
  | .ins t g => Sys2Proof.Machine.execIns t g s
  | .cp t g cond k => Sys2Proof.Machine.execCp t g cond k s
  | .cpn t g cond k => Sys2Proof.Machine.execCpn t g cond k s
  | .pset t g k => Sys2Proof.Machine.execPset t g k s
  | .pinv t g k => Sys2Proof.Machine.execPinv t g k s
  | .brs t g e => Sys2Proof.Machine.execBrs t g e s
  | .calls t g e => Sys2Proof.Machine.execCalls t g e s
  | .br t g => Sys2Proof.Machine.execBr t g s
  | .call t g => Sys2Proof.Machine.execCall t g s
  | .ret t g => Sys2Proof.Machine.execRet t g s
  | .nextW t g f => Sys2Proof.Machine.execNextW t g f s
  | .kill t g => Sys2Proof.Machine.execKill t g s
  | .gate t g k => Sys2Proof.Machine.execGate t g k s
  | .gret t g => Sys2Proof.Machine.execGret t g s
  | .reti t g => Sys2Proof.Machine.execReti t g s
  | .ld1 t g form => Sys2Proof.Machine.execLd1 t g form s
  | .ld2 t g form => Sys2Proof.Machine.execLd2 t g form s
  | .ld3 t g form => Sys2Proof.Machine.execLd3 t g form s
  | .ld4 t g form => Sys2Proof.Machine.execLd4 t g form s
  | .ld6 t g form => Sys2Proof.Machine.execLd6 t g form s
  | .lds1 t g form => Sys2Proof.Machine.execLds1 t g form s
  | .lds2 t g form => Sys2Proof.Machine.execLds2 t g form s
  | .lds3 t g form => Sys2Proof.Machine.execLds3 t g form s
  | .lds4 t g form => Sys2Proof.Machine.execLds4 t g form s
  | .ldd t g form => Sys2Proof.Machine.execLdd t g form s
  | .st1 t g form => Sys2Proof.Machine.execSt1 t g form s
  | .st2 t g form => Sys2Proof.Machine.execSt2 t g form s
  | .st3 t g form => Sys2Proof.Machine.execSt3 t g form s
  | .st4 t g form => Sys2Proof.Machine.execSt4 t g form s
  | .st6 t g form => Sys2Proof.Machine.execSt6 t g form s
  | .std t g form => Sys2Proof.Machine.execStd t g form s
  | .lr6 t g => Sys2Proof.Machine.execLr6 t g s
  | .sc6 t g => Sys2Proof.Machine.execSc6 t g s
  | .tas t g => Sys2Proof.Machine.execTas t g s
  | .cas6 t g => Sys2Proof.Machine.execCas6 t g s
  | .fence t g => Sys2Proof.Machine.execFence t g s
  | .flush t g => Sys2Proof.Machine.execFlush t g s
  | .inval t g => Sys2Proof.Machine.execInval t g s
  | .pst t g => Sys2Proof.Machine.execPst t g s
  | .pld t g => Sys2Proof.Machine.execPld t g s
  | .psync t g => Sys2Proof.Machine.execPsync t g s
  | .move t g y => Sys2Proof.Machine.execMove t g y s
  | .fill t g y => Sys2Proof.Machine.execFill t g y s
  | .csum t g y => Sys2Proof.Machine.execCsum t g y s
  | .tnow t g => Sys2Proof.Machine.execTnow t g s
  | .tadd t g => Sys2Proof.Machine.execTadd t g s
  | .tsub t g => Sys2Proof.Machine.execTsub t g s
  | .tcmp t g => Sys2Proof.Machine.execTcmp t g s
  | .tscale t g => Sys2Proof.Machine.execTscale t g s
  | .waitt t g => Sys2Proof.Machine.execWaitt t g s
  | .wfe t g => Sys2Proof.Machine.execWfe t g s
  | .sev t g => Sys2Proof.Machine.execSev t g s
  | .getwork t g => Sys2Proof.Machine.execGetwork t g s
  | .forward t g => Sys2Proof.Machine.execForward t g s
  | .doneW t g => Sys2Proof.Machine.execDoneW t g s
  | .dropw t g => Sys2Proof.Machine.execDropw t g s
  | .tag t g => Sys2Proof.Machine.execTag t g s
  | .untag t g => Sys2Proof.Machine.execUntag t g s
  | .setlaunch t g => Sys2Proof.Machine.execSetlaunch t g s
  | .leash t g => Sys2Proof.Machine.execLeash t g s
  | .unleash t g => Sys2Proof.Machine.execUnleash t g s
  | .crc32 t g => Sys2Proof.Machine.execCrc32 t g s
  | .crc32c t g => Sys2Proof.Machine.execCrc32c t g s
  | .csum16 t g => Sys2Proof.Machine.execCsum16 t g s
  | .csumupd t g => Sys2Proof.Machine.execCsumupd t g s
  | .keyld t g => Sys2Proof.Machine.execKeyld t g s
  | .gcmenc t g => Sys2Proof.Machine.execGcmenc t g s
  | .gcmdec t g => Sys2Proof.Machine.execGcmdec t g s
  | .sha256 t g => Sys2Proof.Machine.execSha256 t g s
  | .shachain t g => Sys2Proof.Machine.execShachain t g s
  | .lkp t g => Sys2Proof.Machine.execLkp t g s
  | .lkpx t g => Sys2Proof.Machine.execLkpx t g s
  | .lkpt t g => Sys2Proof.Machine.execLkpt t g s
  | .hashW t g => Sys2Proof.Machine.execHashW t g s
  | .seqrec t g => Sys2Proof.Machine.execSeqrec t g s
  | .seqrst t g => Sys2Proof.Machine.execSeqrst t g s
  | .customerHelperOp t g f => Sys2Proof.Machine.execCustomerHelperOp t g f s
  | .helperCompletion t => Sys2Proof.Machine.execHelperCompletion t s
  | .chResponse rid r0 r1 => Sys2Proof.Machine.execChResponse rid r0 r1 s
  | .chTimeout t => Sys2Proof.Machine.execChTimeout t s
  | .chEvent => Sys2Proof.Machine.execChEvent s
  | .storeDrain t meet atReset issued => Sys2Proof.Machine.execStoreDrain t s meet atReset issued
  | .storeFault t => Sys2Proof.Machine.execStoreFault t s
  | .dcacheFill c line => Sys2Proof.Machine.execDcacheFill c line s
  | .icacheFill c waddr => Sys2Proof.Machine.execIcacheFill c waddr s
  | .spillEngineSpill t l rs => Sys2Proof.Machine.execSpillEngineSpill t l rs s
  | .spillEngineFill t rs => Sys2Proof.Machine.execSpillEngineFill t rs s
  | .modeSwitchRequest c det => Sys2Proof.Machine.execModeSwitchRequest c det s
  | .modeSwitchComplete c => Sys2Proof.Machine.execModeSwitchComplete c s
  | .btbInvalidate c => Sys2Proof.Machine.execBtbInvalidate c s
  | .waitLimit t => Sys2Proof.Machine.execWaitLimit t s
  | .cas6Timeout t => Sys2Proof.Machine.execCas6Timeout t s
  | .semResponse t old st => Sys2Proof.Machine.execSemResponse t old st s
  | .fabResponse tag data st => Sys2Proof.Machine.execFabResponse tag data st s
  | .fabricTimeout tag => Sys2Proof.Machine.execFabricTimeout tag s
  | .ownerReset => Sys2Proof.Machine.execOwnerReset s
  | .ownerResetAck rom => Sys2Proof.Machine.execOwnerResetAck rom s
  | .timeStep => Sys2Proof.Machine.execTimeStep s
  | .ppsEdge bus => Sys2Proof.Machine.execPpsEdge bus s
  | .followLoad => Sys2Proof.Machine.execFollowLoad s
  | .ppsMiss => Sys2Proof.Machine.execPpsMiss s
  | .extIrqEdge k => Sys2Proof.Machine.execExtIrqEdge k s
  | .extRetract k => Sys2Proof.Machine.execExtRetract k s
  | .sourceSetPending k => Sys2Proof.Machine.execSourceSetPending k s
  | .eventSet t => Sys2Proof.Machine.execEventSet t s
  | .interruptEntry t inWindow => Sys2Proof.Machine.execInterruptEntry t inWindow s
  | .ticClaim t => Sys2Proof.Machine.execTicClaim t s
  | .machineCheckEntry => Sys2Proof.Machine.execMachineCheckEntry s
  | .mcstatRead => Sys2Proof.Machine.execMcstatRead s
  | .wakeLatchRead k => Sys2Proof.Machine.execWakeLatchRead k s
  | .leashExpiry t => Sys2Proof.Machine.execLeashExpiry t s
  | .leashOverrun t => Sys2Proof.Machine.execLeashOverrun t s
  | .threadReset ag t => Sys2Proof.Machine.execThreadReset ag t s
  | .coreReset ag c => Sys2Proof.Machine.execCoreReset ag c s
  | .tileReset src held pins => Sys2Proof.Machine.execTileReset src held pins s
  | .powerOnReset held pins => Sys2Proof.Machine.execPowerOnReset held pins s
  | .wakeFromOff pins => Sys2Proof.Machine.execWakeFromOff pins s
  | .watchdogKick ag c => Sys2Proof.Machine.execWatchdogKick ag c s
  | .watchdogConfigure c v => Sys2Proof.Machine.execWatchdogConfigure c v s
  | .watchdogBark c => Sys2Proof.Machine.execWatchdogBark c s
  | .watchdogBite c pins => Sys2Proof.Machine.execWatchdogBite c s pins
  | .heelStuck t => Sys2Proof.Machine.execHeelStuck t s
  | .debugHalt => Sys2Proof.Machine.execDebugHalt s
  | .haltComplete => Sys2Proof.Machine.execHaltComplete s
  | .debugResume => Sys2Proof.Machine.execDebugResume s
  | .debugStep => Sys2Proof.Machine.execDebugStep s
  | .debugDetach => Sys2Proof.Machine.execDebugDetach s
  | .debugSelect t => Sys2Proof.Machine.execDebugSelect t s
  | .debugInject ml w => Sys2Proof.Machine.execDebugInject ml w s
  | .dpcWrite t pc => Sys2Proof.Machine.execDpcWrite t pc s
  | .whistleBreak => Sys2Proof.Machine.execWhistleBreak s
  | .whistleReset lowNs pins => Sys2Proof.Machine.execWhistleReset lowNs pins s
  | .frameTimeout => Sys2Proof.Machine.execFrameTimeout s
  | .ident fr cmd => Sys2Proof.Machine.execIdent fr s cmd
  | .addrCmd fr => Sys2Proof.Machine.execAddrCmd fr s
  | .rd fr => Sys2Proof.Machine.execRd fr s
  | .rdi fr => Sys2Proof.Machine.execRdi fr s
  | .wr fr atReset => Sys2Proof.Machine.execWr fr s atReset
  | .poll fr => Sys2Proof.Machine.execPoll fr s
  | .termw fr => Sys2Proof.Machine.execTermw fr s
  | .termr fr => Sys2Proof.Machine.execTermr fr s
  | .whistleOperationEnd => Sys2Proof.Machine.execWhistleOperationEnd s
  | .authChallenge fr => Sys2Proof.Machine.execAuthChallenge fr s
  | .authNonce fr => Sys2Proof.Machine.execAuthNonce fr s
  | .authStoreResponse fr => Sys2Proof.Machine.execAuthStoreResponse fr s
  | .authVerify fr => Sys2Proof.Machine.execAuthVerify fr s
  | .authLock fr => Sys2Proof.Machine.execAuthLock fr s
  | .terminalTransmit c v => Sys2Proof.Machine.execTerminalTransmit c v s
  | .terminalReceive c => Sys2Proof.Machine.execTerminalReceive c s
  | .itemDescriptor c0 c1 c2 c3 kind => Sys2Proof.Machine.execItemDescriptor c0 c1 c2 c3 s kind
  | .cancel c0 c1 c2 c3 => Sys2Proof.Machine.execCancel c0 c1 c2 c3 s
  | .fenceOut c0 c1 c2 c3 => Sys2Proof.Machine.execFenceOut c0 c1 c2 c3 s
  | .fenceIn c0 c1 c2 c3 => Sys2Proof.Machine.execFenceIn c0 c1 c2 c3 s
  | .fenceDrained c0 c1 c2 c3 => Sys2Proof.Machine.execFenceDrained c0 c1 c2 c3 s
  | .stashBeat beat be data => Sys2Proof.Machine.execStashBeat beat be data s
  | .slotFill => Sys2Proof.Machine.execSlotFill s
  | .slotMove t => Sys2Proof.Machine.execSlotMove t s
  | .ledgerAdvance => Sys2Proof.Machine.execLedgerAdvance s
  | .releaseRecord => Sys2Proof.Machine.execReleaseRecord s
  | .drainedRecord flow => Sys2Proof.Machine.execDrainedRecord flow s
  | .flowReset => Sys2Proof.Machine.execFlowReset s
  | .tamper => Sys2Proof.Machine.execTamper s
  | .kennelWipe => Sys2Proof.Machine.execKennelWipe s
  | .kennelOverwriteDone => Sys2Proof.Machine.execKennelOverwriteDone s
  | .borrowStart c owner base => Sys2Proof.Machine.execBorrowStart c owner base s
  | .borrowRelease c => Sys2Proof.Machine.execBorrowRelease c s
  | .borrowCopyInDone c => Sys2Proof.Machine.execBorrowCopyInDone c s
  | .borrowCopyBackDone c => Sys2Proof.Machine.execBorrowCopyBackDone c s
  | .keepStoreWriteDone => Sys2Proof.Machine.execKeepStoreWriteDone s
  | .scrubStep walker => Sys2Proof.Machine.execScrubStep walker s
  | .flashClear bank => Sys2Proof.Machine.execFlashClear bank s
  | .flashClearDone => Sys2Proof.Machine.execFlashClearDone s
  | .ceCounterRead b => Sys2Proof.Machine.execCeCounterRead b s
  | .ceLogRead => Sys2Proof.Machine.execCeLogRead s
  | .ueLogRead => Sys2Proof.Machine.execUeLogRead s
  | .lossLogRead => Sys2Proof.Machine.execLossLogRead s
  | .coreNap c => Sys2Proof.Machine.execCoreNap c s
  | .coreDoze c => Sys2Proof.Machine.execCoreDoze c s
  | .coreWake c => Sys2Proof.Machine.execCoreWake c s
  | .timedWake who => Sys2Proof.Machine.execTimedWake who s
  | .tileSleep => Sys2Proof.Machine.execTileSleep s
  | .tileOff => Sys2Proof.Machine.execTileOff s
  | .pwrAck => Sys2Proof.Machine.execPwrAck s
  | .pwrWake => Sys2Proof.Machine.execPwrWake s
  | .profileLoadCommand sel => Sys2Proof.Machine.execProfileLoadCommand sel s
  | .profileLoadComplete => Sys2Proof.Machine.execProfileLoadComplete s
  | .helperOffCommand k => Sys2Proof.Machine.execHelperOffCommand k s
  | .helperOnCommand k => Sys2Proof.Machine.execHelperOnCommand k s
  | .helperPowerOff k delivered => Sys2Proof.Machine.execHelperPowerOff k s delivered
  | .helperReady k => Sys2Proof.Machine.execHelperReady k s
  | .lcTransition v => Sys2Proof.Machine.execLcTransition v s
  | .lcTransitionComplete pins => Sys2Proof.Machine.execLcTransitionComplete pins s
  | .ternaryCommit v => Sys2Proof.Machine.execTernaryCommit v s
  | .streamReset v => Sys2Proof.Machine.execStreamReset v s
  | .registerWrite ag addr v atReset => Sys2Proof.Machine.execRegisterWrite ag addr v s atReset
  | .reservedEncoding t g op => Sys2Proof.Machine.execReservedEncoding t g op s
  | .timeKeeperCycle => Sys2Proof.Machine.execTimeKeeperCycle s
  | .wakeCompleted who => Sys2Proof.Machine.execWakeCompleted who s
  | .framingError => Sys2Proof.Machine.execFramingError s
  | .resetRelease pins => Sys2Proof.Machine.execResetRelease pins s

end Sys2Proof.Machine
end

