-- ==== Sys2Proof/Safety.lean ====
section
/-! DEFINITION. What counts as a safe step, and when a word of a thread completes, in the terms the claims use. -/

namespace Sys2Proof

open Sys2Proof.Machine

/-- A step goes on: it neither faults nor refuses. -/
def goesOn (s : State) : Prop := ∃ s', step s = .next s'

/-- The stored bytes and the shared program store stand in canonical form: rising addresses, no entry equal to what an
unlisted address reads as. -/
def memoryWf (s : State) : Bool := smWf 0 s.mem && smWf sharedKill s.sprog

/-- The thread's next word issues on its own: the thread may issue, no debugger injects or steps the word, its fetch delivers
a clean word, and no comparator matches it. -/
structure Issues (t : ThreadId) (s : State) : Prop where
  may : canIssue s t = true
  alone : s.dbg.stepping = false
  mine : (s.thr t).inj = none
  clean : ∃ w, threadFetch (beginWord t s) t (s.thr t).arch.pc = (.word w, beginWord t s)
  unwatched : pcHits (beginWord t s) t = 0

/-- The word's guard holds (R55). -/
def guardHolds (t : ThreadId) (g : Guard) (s : State) : Prop := (s.thr t).guardPred g = true

/-- The running level's operand stack has the cells a word pops (one that pops none runs at any depth), room for those it pushes (R236), the popped ones resident
once `s1` stands (R206), and they are `cells`, top first. -/
structure Stands (t : ThreadId) (pops pushes : Nat) (cells : List PCell) (s s1 : State) : Prop where
  deep : pops ≠ 0 → (pops : Int) ≤ curDepth s t false
  room : pops < pushes → (s.stk t (curLevel s t) false).fits (curDepth s t false - pops + pushes) = true
  filled : ensureCur t false pops s = some s1
  top : curTop s1 t false pops = cells

/-- Every cell of a list has good parity and no poison (R208, R215). -/
def Clean (cells : List PCell) : Prop := ∀ c ∈ cells, c.par = 0 ∧ c.poison = 0

/-- A word of thread t with guard g completes on operand cells: it issues, its guard holds, and its operands stand. `s1` is
the state that its effect starts from. -/
structure Runs (t : ThreadId) (g : Guard) (pops pushes : Nat) (cells : List PCell) (s s1 : State) : Prop where
  issues : Issues t s
  guarded : guardHolds t g s
  stands : Stands t pops pushes cells (beginWord t s) s1

/-- What a word leaves that pops n operand cells, pushes others, top first, and continues at the next word. -/
def wordDone (t : ThreadId) (n : Nat) (out : List PCell) (s : State) : State :=
  retireNext t (curReplace t false n out s)

/-- What a word leaves that changes no stack and continues at the next word. -/
def plainDone (t : ThreadId) (s : State) : State := retireNext t s

end Sys2Proof
end

