-- ==== Sys2Proof/Certificates/Slice0/Obligations.lean ====
section
/-! DEFINITION. The statements for the provers. Each docstring names the rules of spec/ that its statement formalises. A claim of
several parts is put together at the end of the file from its parts, which stand before it under Sys2Proof.Claims. -/

open Sys2Proof Sys2Proof.Machine

/-! ### The block: its queue, its reset, its encodings, its memory -/

/-- A step takes the command at the front of the queue and carries it out on the state with the queue's rest; on an empty queue the
block idles (the model's queue, log entry 3). -/
def Sys2Proof.Claims.StepRunsFront : Prop :=
  (∀ (c : Instr) (rest : List Instr) (s : State), s.pending = c :: rest → step s = exec c { s with pending := rest }) ∧
  ∀ s : State, s.pending = [] → step s = .next s

/-- No command faults and none is refused: the spec gives every row an effect. -/
def Sys2Proof.Claims.EveryCommandAnswers : Prop :=
  (∀ (c : Instr) (s : State), ∃ u, exec c s = .next u) ∧ ∀ s : State, goesOn s

/-- What reset leaves, as the spec gives it: every thread at M level at word 0xF_F000 with IPL 0, predicates 0 and all
stacks empty (R228, R484); no core fenced, every cache and buffer empty; the timebase 0 with INCR 0x00AA_AAAA_AAAB (R162); no
source pending; no gate, node or ternary entry; program memory KILL and every byte outside the keep store with V = 0 (R346, R351);
the life cycle BLANK (R488): that the keep store of the reset state holds no life-cycle mark is the model's choice (log entry 7). -/
def Obligations.ResetLeaves : Prop :=
  let s := State.reset
  (∀ t : ThreadId, (s.thr t).arch.pc = 0xFF000 ∧ (s.thr t).arch.level = .M ∧ (s.thr t).arch.ipl = 0 ∧
    (s.thr t).arch.p1 = false ∧ (s.thr t).arch.p2 = false ∧ (s.thr t).arch.p3 = false ∧ (s.thr t).pend = .none ∧
    (s.thr t).resv = none ∧ (s.thr t).semTimeout = 65536 ∧ (s.thr t).rstinfo = 0 ∧
    ∀ (l : Level) (rs : Bool), (s.stk t l rs).res = [] ∧ (s.stk t l rs).depth = 0) ∧
  (∀ c : CoreId, (s.cor c).fenced = false ∧ (s.cor c).sb = [] ∧ (s.cor c).dlines = [] ∧ (s.cor c).ilines = [] ∧
    (s.cor c).lprog = [] ∧ (s.cor c).rest = .run) ∧
  s.tk.tb = 0 ∧ s.tk.incr = 0x00AAAAAAAAAB ∧ s.tic.src = [] ∧ s.gates = [] ∧ s.fetch.nodes = [] ∧ s.help.tern = [] ∧
  s.sprog = [] ∧ (∀ e ∈ s.mem, isKeep e.1 = true) ∧ s.lc.stateOut = 0 ∧ s.pending = []

/-- The reset memory stands in canonical form. -/
def Obligations.ResetMemoryCanonical : Prop := memoryWf State.reset = true

/-- Every step keeps the memory's canonical form: the stored bytes and the shared program store list rising addresses and no entry equal
to what an unlisted address reads as, so that equal contents are equal data. -/
def Obligations.StepKeepsMemoryCanonical : Prop :=
  ∀ s u : State, memoryWf s = true → step s = .next u → memoryWf u = true

/-- A block word as a program word spells it: the commands' number of steps before a yield is the environment's, not the word's. -/
def Sys2Proof.asSpelled : Instr → Instr
  | .move t g _ => .move t g none
  | .fill t g _ => .fill t g none
  | .csum t g _ => .csum t g none
  | i => i

/-- R54, R62 to R73: every 14-bit word decodes to one well-formed word of its thread, whose encoding it is; and the encoding of every
well-formed word decodes to that word, with every operand at every value. -/
def Obligations.EncodingRoundTrip : Prop :=
  (∀ (t : ThreadId) (w : PWord), encodeWord (decodeWord t w) = some w ∧ (decodeWord t w).wf = true ∧
    wordThread (decodeWord t w) = some t) ∧
  ∀ (t : ThreadId) (i : Instr) (w : PWord), i.wf = true → wordThread i = some t → encodeWord i = some w →
    decodeWord t w = asSpelled i

/-- R54, R62 to R72: words of each group, spelled bit by bit, with the instructions they stand for. -/
def Obligations.WordsDecode : Prop :=
  ∀ t : ThreadId,
    decodeWord t 0b00_1000_0010_0000 = .add t 0 ∧
    decodeWord t 0b01_1000_0010_0000 = .add t 1 ∧
    decodeWord t 0b00_0011_1111_1110 = .lit t 0 0b1111111110 ∧
    decodeWord t 0b00_0100_0001_1000 = .litx t 0 0b000011000 ∧
    decodeWord t 0b00_0110_1111_1111 = .brs t 0 0b11111111 ∧
    decodeWord t 0b00_1000_1000_1001 = .cp t 0 0b010 0b01 ∧
    decodeWord t 0b11_1000_1100_0011 = .pset t 3 0b11 ∧
    decodeWord t 0b00_1011_0001_0100 = .ld6 t 0 .base ∧
    decodeWord t 0b00_1100_0000_0100 = .ld6 t 0 (.mode 0) ∧
    decodeWord t 0b00_1100_0000_1110 = .st6 t 0 (.mode 0) ∧
    decodeWord t 0b00_1100_0001_0100 = .ld6 t 0 (.mode 1) ∧
    decodeWord t 0b00_1100_0111_1001 = .ldd t 0 (.mode 7) ∧
    decodeWord t 0b00_1100_1001_0100 = .ld6 t 0 (.mode 9) ∧
    decodeWord t 0b00_1011_0010_0011 = .cas6 t 0 ∧
    decodeWord t 0b00_1011_0011_0000 = .pst t 0 ∧
    decodeWord t 0b00_1011_0100_0101 = .waitt t 0 ∧
    decodeWord t 0b00_1011_0101_0001 = .forward t 0 ∧
    decodeWord t 0b00_1011_0110_0000 = .leash t 0 ∧
    decodeWord t 0b00_1010_0000_0101 = .gate t 0 5 ∧
    decodeWord t 0b00_1110_1000_0001 = .lkpx t 0 ∧
    decodeWord t 0b00_1110_1100_0011 = .customerHelperOp t 0 3 ∧
    decodeWord t 0b00_1111_0000_0000 = .reservedEncoding t 0 0xF00

/-! ### Words: what every word shares -/

/-- Is an instruction's operand field a reserved value (R69, R73)? -/
def Sys2Proof.isFieldForm : Instr → Bool
  | .cp _ _ cond k => decide (6 ≤ cond.toNat ∨ k = 0)
  | .cpn _ _ cond k => decide (6 ≤ cond.toNat ∨ k = 0)
  | .pset _ _ k => decide (k = 0)
  | .pinv _ _ k => decide (k = 0)
  | .reservedEncoding _ _ _ => true
  | _ => false

/-- The helper class that a word belongs to (R72). -/
def Sys2Proof.wordClass : Instr → Option Nat
  | .crc32 _ _ | .crc32c _ _ | .csum16 _ _ | .csumupd _ _ => some 0
  | .keyld _ _ | .gcmenc _ _ | .gcmdec _ _ | .sha256 _ _ | .shachain _ _ => some 1
  | .lkp _ _ | .lkpx _ _ | .lkpt _ _ | .hashW _ _ => some 2
  | .seqrec _ _ | .seqrst _ _ => some 3
  | .customerHelperOp _ _ _ => some 4
  | _ => none

/-- R60: a word whose guard's predicate is false has no effect but advancing the PC by one word, whatever word it is, transfers and
waits included: no stack, memory, flag or register changes. Only the branch prediction of its core, which holds no architectural
state, may take note of a squashed transfer. A word of a helper class is one whose class is present (R61). -/
def Sys2Proof.Claims.SquashEffects : Prop :=
  ∀ (t : ThreadId) (g : Guard) (op : BitVec 12) (i : Instr) (s : State), Issues t s → ¬guardHolds t g s →
    wordThread i = some t → encodeParts i = some (g, op) → isFieldForm i = false →
    (∀ k, wordClass i = some k → helperPresent s k = true) →
    ∃ u, exec i s = .next u ∧ u = { plainDone t (beginWord t s) with cores := u.cores } ∧
      (u.thr t).arch.pc = (s.thr t).arch.pc + 1 ∧ (∀ v, v ≠ t → u.thr v = s.thr v) ∧
      ∀ c, { u.cor c with btb := [], btbMark := [] } = { s.cor c with btb := [], btbMark := [] }

/-- R59, R88, R208, R215, R236: the tests of a word in their order, for a word of two operands and one result and for one that pushes:
fewer cells than it pops raise stack underflow; a push past the limit raises stack overflow; of the operands it reads, bad parity
raises stack parity, and else a poisoned byte raises poisoned data, with the operands on the stack. That parity comes before poison
where both stand is the model's choice (log entry 13). -/
def Obligations.OperandTests : Prop :=
  ∀ (t : ThreadId) (g : Guard) (s : State), Issues t s → guardHolds t g s →
    let b := beginWord t s
    let k := b.stk t (curLevel b t) false
    (k.depth < 2 → ∀ i ∈ [Instr.add t g, .sub t g, .mul t g, .andW t g, .shl t g, .swap t g, .over t g],
      exec i s = .next (raiseExc t { cause := 7, sub := 0, addr := 0 } b)) ∧
    (k.fits (k.depth + 1) = false →
      (∀ n, exec (.lit t g n) s = .next (raiseExc t { cause := 6, sub := 0, addr := 0 } b)) ∧
      (1 ≤ k.depth → exec (.dup t g) s = .next (raiseExc t { cause := 6, sub := 0, addr := 0 } b))) ∧
    ∀ (x y : PCell) (rest : List PCell), k.res = y :: x :: rest → (2 : Int) ≤ k.depth →
      ∀ i ∈ [Instr.add t g, .sub t g, .mul t g, .andW t g, .shl t g],
        (x.par ≠ 0 ∨ y.par ≠ 0 → exec i s = .next (raiseExc t { cause := 0x0D, sub := 0, addr := 0 } b)) ∧
        (x.par = 0 → y.par = 0 → x.poison ≠ 0 ∨ y.poison ≠ 0 →
          exec i s = .next (raiseExc t { cause := 0x10, sub := 1, addr := 0 } b))

/-- The offset, in its thread's own scratchpad, of byte j of the i-th cell that a stack spills from a state on: the first goes to the
spill pointer, each next one 6 bytes higher (R203). -/
def Sys2Proof.spillSlot (t : ThreadId) (l : Level) (rs : Bool) (i j : Nat) (x : State) : Nat :=
  ((x.stk t l rs).sp + BitVec.ofNat 17 (6 * i)).toNat + j

/-- The cells that a stack spills between two states. -/
def Sys2Proof.spilled (t : ThreadId) (l : Level) (rs : Bool) (x y : State) : Nat :=
  (x.stk t l rs).res.length - (y.stk t l rs).res.length

/-- Between two states a thread's stacks only spill: every stored byte outside the slots of the cells they spill reads as before, in
the scratchpad and in a borrow buffer alike, and where one cell spills, its slot holds that cell's bytes. -/
structure Sys2Proof.SpillsOnly (t : ThreadId) (x y : State) : Prop where
  frame : ∀ (via : Via) (a : Nat),
    (∀ l rs i j, i < spilled t l rs x y → j < 6 → spillSlot t l rs i j x < 0x18000 →
      a ≠ spadBase t.core.val + spillSlot t l rs i j x) → rawByte y via a = rawByte x via a
  slot : ∀ (l : Level) (rs : Bool) (c : PCell), (x.stk t l rs).res.getLast? = some c → spilled t l rs x y = 1 →
    (∀ l' rs', (l', rs') ≠ (l, rs) → spilled t l' rs' x y = 0) → ∀ j < 6, (x.stk t l rs).sp.toNat + j < 0x18000 →
    rawByte y .normal (spadBase t.core.val + (x.stk t l rs).sp.toNat + j) = spillByte c j

/-- Between two states a stack only fills n cells: no stored byte changes but a byte that a fill reads, which in legacy mode is
corrected (R203, R333). -/
structure Sys2Proof.FillsOnly (t : ThreadId) (l : Level) (rs : Bool) (n : Nat) (x y : State) : Prop where
  frame : ∀ (via : Via) (a : Nat),
    (∀ i j, i < n → j < 6 → ((x.stk t l rs).sp - BitVec.ofNat 17 (6 * (i + 1))).toNat + j < 0x18000 →
      a ≠ spadBase t.core.val + (((x.stk t l rs).sp - BitVec.ofNat 17 (6 * (i + 1))).toNat + j)) →
    rawByte y via a = rawByte x via a
  fixed : ∀ a, rawByte y .normal a = rawByte x .normal a ∨
    (x.ecc.legacy = true ∧ ∃ d, classify (rawByte x .normal a) = .ce d ∧ rawByte y .normal a = encByte d)

/-- The frame of a word that works on its operand stack alone (R36, R198 to R208): beside its own thread it leaves every thread as it
was but for reservations, which a spill to their cell clears. Its own thread stays but for the PC, the operand stacks, what ends as a word
retires (SKIP, the window of an entry or a RETI, what drains that met it left) and its reservation. The return stacks stay. Another
level's operand stack may spill cells, and keeps its depth; the running one has the word's operands taken away and its results on top, as
far as the window holds them; a depth is said where no spill pointer wraps. Every core's programs, store buffer, caches and registers
stay. Memory changes in three steps, each at addresses computed from the stacks: the spills that make room for the fill of its operands,
that fill, and the spills that make room for its results. No other part of the tile changes but the memories' error logs and the sources
they raise. Where the operands are resident and the results fit in the resident window, all memory stays and nothing outside the thread
changes. -/
def Obligations.WordFrame : Prop :=
  ∀ (t : ThreadId) (g : Guard) (pops pushes : Nat) (cells out : List PCell) (s s1 : State),
    Runs t g pops pushes cells s s1 →
    let u := wordDone t pops out s1
    let l := curLevel s t
    let b := beginWord t s
    let n := pops - (s.stk t l false).res.length
    let m := if n = 0 then b else makeRoom t l false n b
    let v := s1.setStk t l false { s1.stk t l false with res := out ++ (s1.stk t l false).res.drop pops }
    (∀ v, v ≠ t → { u.thr v with resv := none } = { s.thr v with resv := none } ∧
      ((u.thr v).resv = (s.thr v).resv ∨ (u.thr v).resv = none)) ∧
    u.thr t = { s.thr t with
      pend := .none, skip := false, unstack := none, entering := none, arithMet := false, predMet := false
      oldPreds := oldPredsNext (s.thr t).oldPreds
      resv := (u.thr t).resv
      arch := { (s.thr t).arch with
        pc := (s.thr t).arch.pc + 1, stT := (u.thr t).arch.stT, stS := (u.thr t).arch.stS, stM := (u.thr t).arch.stM } } ∧
    ((u.thr t).resv = (s.thr t).resv ∨ (u.thr t).resv = none) ∧
    (∀ l', u.stk t l' true = s.stk t l' true) ∧
    (∀ l', l' ≠ l → ∃ k ≤ (s.stk t l' false).res.length,
      (u.stk t l' false).res = (s.stk t l' false).res.take ((s.stk t l' false).res.length - k) ∧
      (u.stk t l' false).sp = (s.stk t l' false).sp + BitVec.ofNat 17 (6 * k) ∧
      ((s.stk t l' false).sp.toNat + 6 * (s.stk t l' false).res.length < 2 ^ 17 → (u.stk t l' false).depth = (s.stk t l' false).depth)) ∧
    ((u.stk t l false).res <+: out ++ (s1.stk t l false).res.drop pops) ∧ (out.length ≤ 16 → out <+: (u.stk t l false).res) ∧
    (pops ≤ 16 → (s.stk t l false).sp.toNat + 6 * ((s.stk t l false).res.length + out.length) < 2 ^ 17 →
      (u.stk t l false).depth = (s.stk t l false).depth - pops + out.length) ∧
    (∀ (l : Level) (rs : Bool), (u.stk t l rs).base = (s.stk t l rs).base ∧ (u.stk t l rs).lo = (s.stk t l rs).lo ∧
      (u.stk t l rs).hi = (s.stk t l rs).hi) ∧
    (∀ c, c ≠ t.core → u.cor c = s.cor c) ∧
    u.cor t.core = { s.cor t.core with borrow := { (s.cor t.core).borrow with buf := (u.cor t.core).borrow.buf } } ∧
    (∀ a, spadCore a ≠ some t.core → smGet 0 u.mem a = smGet 0 s.mem a) ∧
    SpillsOnly t b m ∧ FillsOnly t l false n m s1 ∧ SpillsOnly t v u ∧
    u = { s with threads := u.threads, cores := u.cores, mem := u.mem, tic := u.tic, ecc := u.ecc } ∧
    (pops ≤ (s.stk t (curLevel s t) false).res.length → residents s t false + out.length ≤ 16 + pops →
      u = s.setThr t (u.thr t) ∧ (u.stk t l false).res = out ++ (s.stk t l false).res.drop pops ∧
      ∀ l', l' ≠ l → u.stk t l' false = s.stk t l' false)

/-! ### Words: stacks, literals, arithmetic, logic, predicates -/

/-- R83, R88, R92, R93, R200, R215: the shuffles move whole cells, poison marks with them, and read no value. Cells are written top
first. Those of class Z only rename cells, class-K marks with them, and raise nothing; those of class A read their operand cells, so that
one whose parity fails raises the parity exception, and else they write fresh cells, which carry no class-K mark. That poison raises
nothing, and that PICK reads only the cell it copies, is the model's reading (log entry 13). -/
def Sys2Proof.Claims.ShuffleResults : Prop :=
  ∀ (t : ThreadId) (g : Guard) (a b c d : PCell) (s s1 : State),
    let anew := fun (x : PCell) => { x with isK := false }
    let reads := fun (cs : List PCell) (i : Instr) (n : Nat) (out : List PCell) =>
      ((∀ x ∈ cs, x.par = 0) → exec i s = .next (wordDone t n out s1)) ∧
      ((∃ x ∈ cs, x.par ≠ 0) → exec i s = .next (raiseExc t { cause := 0x0D, sub := 0, addr := 0 } s1))
    (Runs t g 1 2 [a] s s1 → exec (.dup t g) s = .next (wordDone t 1 [a, a] s1)) ∧
    (Runs t g 1 0 [a] s s1 → exec (.drop t g) s = .next (wordDone t 1 [] s1)) ∧
    (Runs t g 2 2 [b, a] s s1 → exec (.swap t g) s = .next (wordDone t 2 [a, b] s1)) ∧
    (Runs t g 2 3 [b, a] s s1 → exec (.over t g) s = .next (wordDone t 2 [a, b, a] s1)) ∧
    (Runs t g 3 3 [c, b, a] s s1 → exec (.rot t g) s = .next (wordDone t 3 [a, c, b] s1)) ∧
    (Runs t g 2 1 [b, a] s s1 → reads [b, a] (.nip t g) 2 [anew b]) ∧
    (Runs t g 2 3 [b, a] s s1 → reads [b, a] (.tuck t g) 2 [anew b, anew a, anew b]) ∧
    (Runs t g 2 4 [b, a] s s1 → reads [b, a] (.ddup t g) 2 [anew b, anew a, anew b, anew a]) ∧
    (Runs t g 2 0 [b, a] s s1 → reads [b, a] (.ddrop t g) 2 []) ∧
    (Runs t g 4 4 [d, c, b, a] s s1 → reads [d, c, b, a] (.dswap t g) 4 [anew b, anew a, anew d, anew c]) ∧
    (∀ (n : BitVec 4) (cells : List PCell), cells.length = n.toNat →
      Runs t g (n.toNat + 1) (n.toNat + 2) (cells ++ [a]) s s1 →
      reads [a] (.pick t g n) (n.toNat + 1) (anew a :: (cells ++ [a])))

/-- R62, R63, R83, R200: LIT pushes its 10 bits, sign-extended, as a class-K cell; LITX leaves the cell shifted left by 9 with its 9 bits
below. On a class-K cell LITX is of class K itself: it reads no cell, so that neither parity nor poison raises anything, and its result is
a class-K cell; on any other it reads its operand. That a cell loses the mark when it spills is the model's reading (log entry 136). -/
def Sys2Proof.Claims.LiteralResults : Prop :=
  ∀ (t : ThreadId) (g : Guard) (s s1 : State),
    (∀ n : BitVec 10, Runs t g 0 1 [] s s1 →
      exec (.lit t g n) s = .next (wordDone t 0 [{ PCell.of (BitVec.ofInt 48 n.toInt) with isK := true }] s1)) ∧
    (∀ (b : BitVec 9) (x : PCell), Runs t g 1 1 [x] s s1 →
      (x.isK = true ∨ Clean [x] → exec (.litx t g b) s = .next (wordDone t 1
        [{ PCell.of (BitVec.ofNat 48 (x.val.toNat * 512 + b.toNat)) with isK := x.isK }] s1)) ∧
      (x.isK = false → x.par ≠ 0 → exec (.litx t g b) s =
        .next (raiseExc t { cause := 0x0D, sub := 0, addr := 0 } s1)) ∧
      (x.isK = false → x.par = 0 → x.poison ≠ 0 → exec (.litx t g b) s =
        .next (raiseExc t { cause := 0x10, sub := 1, addr := 0 } s1)))

/-- The state with OV of a thread set where `ov` holds, unless a store to THR.ARITH drains in the cycle in which the word retires, whose
value stands (R43, R116). -/
def Sys2Proof.withOv (t : ThreadId) (ov : Bool) (s : State) : State :=
  s.modThr t fun th => { th with arith := { th.arith with ov := th.arith.ov || (ov && !th.arithMet) } }

/-- R37, R38, R95, R96, R98: sum, difference, product, negative and magnitude: the low 48 bits of the exact result, and OV sets
exactly where the result lies outside −2⁴⁷ to 2⁴⁷ − 1, but for a store to THR.ARITH that wins (R43); MULD gives the exact product as a double, high cell on top, and sets
nothing. -/
def Obligations.ArithmeticResults : Prop :=
  ∀ (t : ThreadId) (g : Guard) (a b : PCell) (s s1 : State),
    let one := fun (n : Nat) (v : Int) =>
      Host.Outcome.next (φ := Fault) (ρ := Refusal)
        (retireNext t (withOv t (decide (v < -(2 ^ 47) ∨ 2 ^ 47 ≤ v))
          (curReplace t false n [PCell.of (BitVec.ofInt 48 v)] s1)))
    (Runs t g 2 1 [b, a] s s1 → Clean [b, a] → exec (.add t g) s = one 2 (a.val.toInt + b.val.toInt)) ∧
    (Runs t g 2 1 [b, a] s s1 → Clean [b, a] → exec (.sub t g) s = one 2 (a.val.toInt - b.val.toInt)) ∧
    (Runs t g 2 1 [b, a] s s1 → Clean [b, a] → exec (.mul t g) s = one 2 (a.val.toInt * b.val.toInt)) ∧
    (Runs t g 1 1 [a] s s1 → Clean [a] → exec (.neg t g) s = one 1 (-a.val.toInt)) ∧
    (Runs t g 1 1 [a] s s1 → Clean [a] → exec (.abs t g) s = one 1 (max a.val.toInt (-a.val.toInt))) ∧
    (Runs t g 2 2 [b, a] s s1 → Clean [b, a] → ∃ hi lo : Cell,
      hi.toInt * 2 ^ 48 + lo.toNat = a.val.toInt * b.val.toInt ∧
      exec (.muld t g) s = .next (wordDone t 2 [PCell.of hi, PCell.of lo] s1))

/-- R97, R38: with a divisor other than 0 the divides deliver quotient (on top) and remainder, rounded toward 0 when signed;
only DIV sets OV, and only for −2⁴⁷ by −1. With a divisor of 0 and DZ_TRAP at 0 they deliver an all-ones quotient and the
dividend, and set DZ (R40). A store to THR.ARITH that drains in the divide's cycle leaves its own flags standing (R43, R116). -/
def Sys2Proof.Claims.DivideResults : Prop :=
  ∀ (t : ThreadId) (g : Guard) (a b : PCell) (s s1 : State), Clean [b, a] →
    let done := fun (ov dz : Bool) (out : List Cell) =>
      Host.Outcome.next (φ := Fault) (ρ := Refusal) (retireNext t
        ((curReplace t false 2 (out.map PCell.of) s1).modThr t fun th =>
          { th with arith := { th.arith with ov := th.arith.ov || ov, dz := th.arith.dz || dz } }))
    let met := (s1.thr t).arithMet
    let q := a.val.toInt.tdiv b.val.toInt
    let r := a.val.toInt.tmod b.val.toInt
    (b.val ≠ 0 →
      (Runs t g 2 2 [b, a] s s1 → exec (.div t g) s =
        done (decide (a.val.toInt = -(2 ^ 47) ∧ b.val.toInt = -1) && !met) false [BitVec.ofInt 48 q, BitVec.ofInt 48 r]) ∧
      (Runs t g 2 2 [b, a] s s1 → exec (.divu t g) s = done false false [a.val / b.val, a.val % b.val]) ∧
      (Runs t g 2 1 [b, a] s s1 → exec (.mod t g) s = done false false [BitVec.ofInt 48 r]) ∧
      (Runs t g 2 1 [b, a] s s1 → exec (.modu t g) s = done false false [a.val % b.val])) ∧
    (b.val = 0 → (s1.thr t).arith.dzTrap = false →
      let dz := !met
      (Runs t g 2 2 [b, a] s s1 → exec (.div t g) s = done false dz [BitVec.allOnes 48, a.val]) ∧
      (Runs t g 2 2 [b, a] s s1 → exec (.divu t g) s = done false dz [BitVec.allOnes 48, a.val]) ∧
      (Runs t g 2 1 [b, a] s s1 → exec (.mod t g) s = done false dz [a.val]) ∧
      (Runs t g 2 1 [b, a] s s1 → exec (.modu t g) s = done false dz [a.val]))

/-- R40: with DZ_TRAP at 1 a divisor of 0 takes the divide trap, cause 0x0C, and changes neither operand nor flag first. -/
def Sys2Proof.Claims.DivideTraps : Prop :=
  ∀ (t : ThreadId) (g : Guard) (a b : PCell) (s s1 : State), Clean [b, a] → b.val = 0 → (s1.thr t).arith.dzTrap = true →
    let trap := Host.Outcome.next (φ := Fault) (ρ := Refusal) (raiseExc t { cause := 0x0C, sub := 0, addr := 0 } s1)
    (Runs t g 2 2 [b, a] s s1 → exec (.div t g) s = trap) ∧
    (Runs t g 2 2 [b, a] s s1 → exec (.divu t g) s = trap) ∧
    (Runs t g 2 1 [b, a] s s1 → exec (.mod t g) s = trap) ∧
    (Runs t g 2 1 [b, a] s s1 → exec (.modu t g) s = trap)

/-- R100 to R102: logic, shifts and bit counts. A shift count of 48 or more gives 0, or copies of the sign for SAR; ROL takes its
count modulo 48. None sets a flag. -/
def Sys2Proof.Claims.LogicResults : Prop :=
  ∀ (t : ThreadId) (g : Guard) (a b : PCell) (s s1 : State),
    let two := fun (v : Cell) => Host.Outcome.next (φ := Fault) (ρ := Refusal) (wordDone t 2 [PCell.of v] s1)
    let one := fun (v : Cell) => Host.Outcome.next (φ := Fault) (ρ := Refusal) (wordDone t 1 [PCell.of v] s1)
    let n := b.val.toNat
    (Runs t g 2 1 [b, a] s s1 → Clean [b, a] →
      exec (.andW t g) s = two (a.val &&& b.val) ∧
      exec (.orW t g) s = two (a.val ||| b.val) ∧
      exec (.xorW t g) s = two (a.val ^^^ b.val) ∧
      exec (.shl t g) s = two (BitVec.ofNat 48 (if n < 48 then a.val.toNat * 2 ^ n else 0)) ∧
      exec (.shr t g) s = two (BitVec.ofNat 48 (if n < 48 then a.val.toNat / 2 ^ n else 0)) ∧
      exec (.sar t g) s = two (BitVec.ofInt 48 (if n < 48 then a.val.toInt / 2 ^ n else if a.val.toInt < 0 then -1 else 0)) ∧
      (∃ v : Cell, (∀ i < 48, v.getLsbD ((i + n) % 48) = a.val.getLsbD i) ∧ exec (.rol t g) s = two v)) ∧
    (Runs t g 1 1 [a] s s1 → Clean [a] →
      exec (.notW t g) s = one (~~~a.val) ∧
      (∃ z : Nat, z ≤ 48 ∧ a.val.toNat < 2 ^ (48 - z) ∧ (z < 48 → 2 ^ (47 - z) ≤ a.val.toNat) ∧
        exec (.clz t g) s = one (BitVec.ofNat 48 z)) ∧
      exec (.popc t g) s = one (BitVec.ofNat 48 ((List.range 48).countP a.val.getLsbD)))

/-- R103, R104: BSWAPn reverses the low n bytes and clears those above; EXT takes the field of l bits at p, and INS replaces it,
where p and l are cut at the top of the cell. -/
def Sys2Proof.Claims.FieldResults : Prop :=
  ∀ (t : ThreadId) (g : Guard) (a f pos len : PCell) (s s1 : State),
    (Runs t g 1 1 [a] s s1 → Clean [a] →
      (∀ n, n = 2 ∨ n = 3 ∨ n = 4 ∨ n = 6 → ∃ v : Cell,
        (∀ j, v.extractLsb' (8 * j) 8 = if j < n then a.val.extractLsb' (8 * (n - 1 - j)) 8 else 0#8) ∧
        (n = 2 → exec (.bswap2 t g) s = .next (wordDone t 1 [PCell.of v] s1)) ∧
        (n = 3 → exec (.bswap3 t g) s = .next (wordDone t 1 [PCell.of v] s1)) ∧
        (n = 4 → exec (.bswap4 t g) s = .next (wordDone t 1 [PCell.of v] s1)) ∧
        (n = 6 → exec (.bswap6 t g) s = .next (wordDone t 1 [PCell.of v] s1)))) ∧
    (Runs t g 3 1 [len, pos, a] s s1 → Clean [len, pos, a] → ∃ v : Cell,
      (∀ i < 48, v.getLsbD i = (decide (i < len.val.toNat) && a.val.getLsbD (i + pos.val.toNat))) ∧
      exec (.ext t g) s = .next (wordDone t 3 [PCell.of v] s1)) ∧
    (Runs t g 4 1 [len, pos, f, a] s s1 → Clean [len, pos, f, a] → ∃ v : Cell,
      (∀ i < 48, v.getLsbD i =
        if pos.val.toNat ≤ i ∧ i < pos.val.toNat + len.val.toNat then f.val.getLsbD (i - pos.val.toNat) else a.val.getLsbD i) ∧
      exec (.ins t g) s = .next (wordDone t 4 [PCell.of v] s1))

/-- R69: the truth of "a cond b" for the six conditions. -/
def Sys2Proof.condTrue (cond : Nat) (a b : Cell) : Bool :=
  match cond with
  | 0 => decide (a.toNat = b.toNat)
  | 1 => decide (a.toNat ≠ b.toNat)
  | 2 => decide (a.toInt < b.toInt)
  | 3 => decide (a.toInt ≤ b.toInt)
  | 4 => decide (a.toNat < b.toNat)
  | _ => decide (a.toNat ≤ b.toNat)

/-- The state with predicate k of a thread at b; p0 is nobody's to write (R54, R69). A store to THR.PRED that drains in the cycle in which
the word retires wins (R57). What guards of younger words were read for before a drain has the predicate in either case, by the bypass
(R201). -/
def Sys2Proof.withPred (t : ThreadId) (k : BitVec 2) (b : Bool) (s : State) : State :=
  s.modThr t fun th => { th with
    oldPreds := th.oldPreds.map fun o => { o with
      p1 := if k = 1 then b else o.p1
      p2 := if k = 2 then b else o.p2
      p3 := if k = 3 then b else o.p3 }
    arch := if th.predMet then th.arch else { th.arch with
      p1 := if k = 1 then b else th.arch.p1
      p2 := if k = 2 then b else th.arch.p2
      p3 := if k = 3 then b else th.arch.p3 } }

/-- R57, R106, R107, R116: with a legal condition and predicate number, CP writes the predicate with the comparison and CPN with its
complement, PSET with "the cell is not 0", PINV with the predicate's complement, but for a store to THR.PRED that drains in the word's
cycle, whose values stand. PINV is stated here where no drain has met the words in flight. A FIELD encoding raises illegal opcode,
subcode 1, whatever its guard (R73). -/
def Obligations.PredicateResults : Prop :=
  ∀ (t : ThreadId) (g : Guard) (a b : PCell) (s s1 : State) (cond : BitVec 3) (k : BitVec 2),
    let bad := Host.Outcome.next (φ := Fault) (ρ := Refusal)
      (raiseExc t { cause := 1, sub := 1, addr := (s.thr t).arch.pc.setWidth 36 } (beginWord t s))
    (k ≠ 0 →
      (cond.toNat < 6 → Runs t g 2 0 [b, a] s s1 → Clean [b, a] →
        exec (.cp t g cond k) s =
          .next (retireNext t (withPred t k (condTrue cond.toNat a.val b.val) (curReplace t false 2 [] s1))) ∧
        exec (.cpn t g cond k) s =
          .next (retireNext t (withPred t k (!condTrue cond.toNat a.val b.val) (curReplace t false 2 [] s1)))) ∧
      (Runs t g 1 0 [a] s s1 → Clean [a] →
        exec (.pset t g k) s = .next (retireNext t (withPred t k (decide (a.val ≠ 0)) (curReplace t false 1 [] s1)))) ∧
      (Runs t g 0 0 [] s s1 → (s.thr t).oldPreds = [] →
        exec (.pinv t g k) s = .next (retireNext t (withPred t k (!(s.thr t).arch.pred k) s1)))) ∧
    (Issues t s → 6 ≤ cond.toNat ∨ k = 0 → exec (.cp t g cond k) s = bad ∧ exec (.cpn t g cond k) s = bad) ∧
    (Issues t s → k = 0 → exec (.pset t g k) s = bad ∧ exec (.pinv t g k) s = bad)
/-! ### Words: control transfers, gates, exceptions on request -/

/-- The state after a control transfer that is taken: the prediction structures note it (R216, R217), and the thread continues at
the target. -/
def Sys2Proof.jumped (t : ThreadId) (k : Xfer) (pc : WAddr) (s : State) : State := retire t pc (noteTransfer t (some k) (some pc) s)

/-- R34, R64, R109, R110, R116: the relative transfers reach the word's address + 1 + e modulo 2²⁰, BR and CALL the address on the stack;
a call pushes the ADDR entry of the word after it when the return stack has room, and raises a return-stack fault, OVER, where it has
none. BR and CALL with a bit of the address above bit 19 raise a bus error first, whatever room there is, with the address still on the
stack. -/
def Sys2Proof.Claims.TransferResults : Prop :=
  ∀ (t : ThreadId) (g : Guard) (a : PCell) (e : BitVec 8) (s s1 : State),
    let pc := (s.thr t).arch.pc
    let near : WAddr := BitVec.ofInt 20 (pc.toNat + 1 + e.toInt)
    let entry := PCell.of (BitVec.ofNat 48 (2 ^ 46 + (pc.toNat + 1) % 2 ^ 20))
    (Runs t g 0 0 [] s s1 →
      exec (.brs t g e) s = .next (jumped t .branch near s1) ∧
      (rsRoom s1 t 1 = true →
        exec (.calls t g e) s = .next (jumped t .call near (curReplace t true 0 [entry] (curReplace t false 0 [] s1))))) ∧
    (Runs t g 1 0 [a] s s1 → Clean [a] → a.val.toNat < 2 ^ 20 →
      exec (.br t g) s = .next (jumped t .branch (a.val.setWidth 20) (curReplace t false 1 [] s1)) ∧
      (rsRoom s1 t 1 = true →
        exec (.call t g) s =
          .next (jumped t .call (a.val.setWidth 20) (curReplace t true 0 [entry] (curReplace t false 1 [] s1))))) ∧
    (Runs t g 1 0 [a] s s1 → Clean [a] → 2 ^ 20 ≤ a.val.toNat →
      let fault := Host.Outcome.next (φ := Fault) (ρ := Refusal) (raiseExc t { cause := 3, sub := 0, addr := a.val.setWidth 36 } s1)
      exec (.br t g) s = fault ∧ exec (.call t g) s = fault) ∧
    (rsRoom s1 t 1 = false →
      let full := Host.Outcome.next (φ := Fault) (ρ := Refusal) (raiseExc t { cause := 8, sub := 0, addr := 0 } s1)
      (Runs t g 0 0 [] s s1 → exec (.calls t g e) s = full) ∧
      (Runs t g 1 0 [a] s s1 → Clean [a] → a.val.toNat < 2 ^ 20 → exec (.call t g) s = full))

/-- The top entry of the running level's return stack, resident and clean, is `c`; fewer would underflow. -/
structure Sys2Proof.RsTop (t : ThreadId) (c : PCell) (s : State) : Prop where
  deep : 0 < curDepth s t true
  top : ∃ rest, (s.stk t (curLevel s t) true).res = c :: rest
  clean : Clean [c]

/-- On top of the running level's return stack stand COUNT entries, and below them the entry `c`, all resident and clean. -/
structure Sys2Proof.RsRun (t : ThreadId) (counts : List PCell) (c : PCell) (s : State) : Prop where
  deep : (counts.length : Int) < curDepth s t true
  top : ∃ rest, (s.stk t (curLevel s t) true).res = counts ++ c :: rest
  clean : Clean (counts ++ [c])
  kinds : ∀ x ∈ counts, x.val.extractLsb' 46 2 = 2
  small : counts = [] ∨ residents s t true ≤ 24

/-- R111: RET discards the COUNT entries on top, if there are any, pops the ADDR entry below them and continues there. -/
def Sys2Proof.Claims.ReturnResult : Prop :=
  ∀ (t : ThreadId) (g : Guard) (counts : List PCell) (c : PCell) (s s1 : State), Runs t g 0 0 [] s s1 → RsRun t counts c s1 →
    c.val.extractLsb' 46 2 = 1 →
    exec (.ret t g) s = .next (jumped t .ret (c.val.extractLsb' 0 20)
      ((List.range (counts.length + 1)).foldl (fun x _ => curReplace t true 1 [] x) s1))

/-- R112: NEXT whose COUNT entry lies on top and is not 0 counts it down and branches back by f; at 0 it pops the entry and goes
on. On a first arrival (the return stack empty, or another entry on top than a COUNT entry of its own) it pops n, goes on when n is 0,
and else pushes the COUNT n − 1, at most 67,108,863, above what stands there, and branches back. -/
def Sys2Proof.Claims.LoopResults : Prop :=
  ∀ (t : ThreadId) (g : Guard) (f : BitVec 8) (c n : PCell) (s s1 : State), Runs t g 0 0 [] s s1 →
    let pc := (s.thr t).arch.pc
    let back : WAddr := BitVec.ofInt 20 (pc.toNat - f.toNat)
    let count := fun (k : Nat) => PCell.of (BitVec.ofNat 48 (2 * 2 ^ 46 + k * 2 ^ 20 + pc.toNat))
    (∀ k : Nat, k < 2 ^ 26 → c = count k → RsTop t c s1 →
      (0 < k → exec (.nextW t g f) s = .next (jumped t .branch back (curReplace t true 1 [count (k - 1)] s1))) ∧
      (k = 0 → exec (.nextW t g f) s =
        .next (retireNext t (noteTransfer t (some .branch) none (curReplace t true 1 [] s1))))) ∧
    ((curDepth s1 t true = 0 ∨ (RsTop t c s1 ∧ ¬(c.val.extractLsb' 46 2 = 2 ∧ c.val.extractLsb' 0 20 = pc))) → 0 < curDepth s1 t false →
      (∃ rest, (s1.stk t (curLevel s1 t) false).res = n :: rest) → Clean [n] →
      (n.val = 0 → exec (.nextW t g f) s =
        .next (retireNext t (noteTransfer t (some .branch) none (curReplace t false 1 [] s1)))) ∧
      (n.val ≠ 0 → rsRoom s1 t 1 = true → exec (.nextW t g f) s =
        .next (jumped t .branch back
          (curReplace t true 0 [count (min (n.val.toNat - 1) 67108863)] (curReplace t false 1 [] s1)))))

/-- R115, R73, R114: BKPT takes the breakpoint exception, cause 0x0F, where it does not halt the tile for a debugger; a word whose
encoding is reserved takes illegal opcode, subcode 0, with the word's address, whatever its guard; KILL stops its thread. -/
def Sys2Proof.Claims.BreakAndKillResults : Prop :=
  ∀ (t : ThreadId) (g : Guard) (op : BitVec 12) (s s1 : State),
    (Runs t g 0 0 [] s s1 → ((s.cor t.core).brkhalt && s.dbg.attached) = false →
      exec (.bkpt t g) s = .next (raiseExc t { cause := 0x0F, sub := 0, addr := 0 } s1)) ∧
    (Issues t s → exec (.reservedEncoding t g op) s =
      .next (raiseExc t { cause := 1, sub := 0, addr := (s.thr t).arch.pc.setWidth 36 } (beginWord t s))) ∧
    (Runs t g 0 0 [] s s1 → ∃ u, exec (.kill t g) s = .next u ∧ (u.thr t).stopped = true ∧ (u.thr t).resv = none ∧
      (u.thr t).leash.on = false ∧ (u.thr t).slot = none ∧
      ((s.thr t).cur = none ∨ (currentItem s t).isSome = true → (u.thr t).cur = none))

/-- R114, R382, R391: what a KILL leaves of its thread's items. The current one is ready as LOST with its bookings gone and its edits
discarded, and a loss entry of cause KILL names its core, flow and sequence, or LOSSOVF sets where the log is full; one that a cancel had
marked is ready as CANCELLED with no entry. Frame-window stores that have not drained have lost their visit. The item in the fetch slot
returns to its queue as it was. -/
def Sys2Proof.Claims.KilledItems : Prop :=
  ∀ (t : ThreadId) (g : Guard) (it : Item) (s s1 : State), Runs t g 0 0 [] s s1 → currentItem s1 t = some it →
    it.tag = none → (∀ x ∈ s1.fetch.items, ∀ k, x.tag ≠ some (k, .granted)) →
    s1.fetch.items.countP (fun x => decide (x.id = it.id)) = 1 → (s1.thr t).slot ≠ some it.id →
    let loss : LossEntry := { cause := 1, core := BitVec.ofNat 4 t.core.val, flow := it.flow, seq := it.seq }
    ∃ u x, exec (.kill t g) s = .next u ∧ (u.thr t).stopped = true ∧ (u.thr t).cur = none ∧ (u.thr t).slot = none ∧
      (u.thr t).arch.pc = (s.thr t).arch.pc + 1 ∧ u.mem = s1.mem ∧
      findItem u it.id = some x ∧ x = { it with
        place := .ready
        action := if it.marked then 2 else 3
        port := it.desc1.extractLsb' 38 10
        ordered := none
        readyCyc := s1.fetch.cycle
        edits := []
        kept := []
        bookW := none
        bookP := none
        token := none } ∧
      (it.marked = true → u.heel = s1.heel) ∧
      (it.marked = false →
        (s1.heel.losslog.length < 32 → u.heel = { s1.heel with losslog := s1.heel.losslog ++ [loss] } ∧
          (s1.heel.losslog = [] → s1.ticStopped = false → (u.src 8).pend = true)) ∧
        (32 ≤ s1.heel.losslog.length → u.heel = { s1.heel with lossovf := true })) ∧
      (u.cor t.core).sb = (s1.cor t.core).sb.map (fun e =>
        if e.thread = t ∧ 0x30000000 ≤ e.ea.toNat ∧ e.ea.toNat < 0x30004000 then { e with stray := true } else e) ∧
      ∀ j y, (s1.thr t).slot = some j → findItem s1 j = some y → findItem u j = some { y with place := .queued }

/-- A fetch from a word address delivers a word and changes nothing, whatever stands beside the cores and the shared program store. -/
def Sys2Proof.Fetches (s : State) (c : CoreId) (a : WAddr) : Prop :=
  ∃ w, ∀ x : State, x.cores = s.cores → x.sprog = s.sprog → fetchWord x c a = (.word w, x)

/-- R264: an entry at level l for cause c pushes the status entry and the PC entry on the return stack of l, sets LEVEL to l and
HANDLER to 1, clears the reservation, writes the record of R262 and continues at VBASE.l + 8 × c, when the frame has room and the
vector's first word can be fetched. The leaf of every exception entry, at the level R261 gives. -/
def Sys2Proof.Claims.ExceptionEntry : Prop :=
  ∀ (t : ThreadId) (x : Exc) (s : State),
    let l := exceptionLevel s t x.cause
    let a := entryArch (s.thr t).arch l
    let v : WAddr := BitVec.ofNat 20 ((((s.cor t.core).vbase l).toNat * 512) + 8 * x.cause.toNat)
    (s.thr t).inj = none → x.cause ≠ 0 →
    (a.stk l).rs.fits ((a.stk l).rs.depth + 2) = true →
    (∃ w, fetchWord s t.core v = (.word w, s)) →
    ∃ u, takeException t x s = u ∧
      (u.thr t).arch.pc = v ∧ (u.thr t).arch.level = l ∧ (u.thr t).arch.handler = true ∧
      (u.thr t).resv = none ∧ (u.thr t).pend = .none ∧ (u.thr t).skip = false ∧
      (u.thr t).arch.ipl = (s.thr t).arch.ipl ∧
      (u.thr t).arch.p1 = (s.thr t).arch.p1 ∧ (u.thr t).arch.p2 = (s.thr t).arch.p2 ∧ (u.thr t).arch.p3 = (s.thr t).arch.p3 ∧
      (match l with
        | .T => (u.thr t).xrecT
        | .S => (u.thr t).xrecS
        | .M => (u.thr t).xrecM) = x.cause ++ x.sub ++ levelBits (s.thr t).arch.level ++ x.addr ∧
      (∃ rest, (u.stk t l true).res = PCell.of (statusEntry (s.thr t).arch l x.cause 0) :: PCell.of (pcEntry (s.thr t).arch) :: rest) ∧
      (u.thr t).arith = (s.thr t).arith ∧ u.tk = s.tk ∧ u.fetch = s.fetch ∧
      ((∀ j < 4, Fetches s t.core ((s.cor t.core).vbase l ++ 0#9 + BitVec.ofNat 20 j)) → u.tic = s.tic)

/-- R241, R242, R237: a GATE whose six checks pass, its pointer arguments clean and with their XLEN bytes inside the caller's data
window, records the linkage, raises LEVEL, moves its arguments to the target's operand stack and continues at the gate's PC. That
only a pointer argument's value is read, so that another may be poisoned or of bad parity and moves as it is, is the model's reading
(log entry 25). -/
def Sys2Proof.Claims.GateResult : Prop :=
  ∀ (t : ThreadId) (g : Guard) (k : BitVec 8) (s s1 s2 : State) (tgt : Level) (args : List PCell),
    Runs t g 0 0 [] s s1 →
    let e := smGet GateEntry.boot s.gates k.toNat
    let l := curLevel s t
    let area := gateStacks e ((s2.thr t).arch.stk tgt)
    let lo := if l = .T then (s2.thr t).dwloT else (s2.thr t).dwloS
    let hi := if l = .T then (s2.thr t).dwhiT else (s2.thr t).dwhiS
    l ≠ .M → e.enta.getLsbD 47 = true → (if l = .T then e.entb.getLsbD 44 else e.entb.getLsbD 45) = true →
    e.enta.extractLsb' 45 2 = levelBits tgt → levelNum l < levelNum tgt →
    (e.narg : Int) ≤ curDepth s t false → ensureCur t false e.narg s1 = some s2 → curTop s2 t false e.narg = args →
    (∀ i, (h : i < args.length) → e.enta.getLsbD (33 + i) = true → Clean [args[i]] ∧ args[i].val.toNat < 2 ^ 36 ∧
      lo.toNat ≤ args[i].val.toNat ∧ args[i].val.toNat + (e.enta.extractLsb' 21 12).toNat ≤ hi.toNat) → area.2 = false →
    ∃ u, exec (.gate t g k) s = .next u ∧ (u.thr t).arch.level = tgt ∧ (u.thr t).arch.pc = e.enta.extractLsb' 0 20 ∧
      (u.thr t).arch.glink tgt =
        { valid := true, caller := l, nres := e.enta.extractLsb' 40 2, frames := 0, gate := k, rpc := (s.thr t).arch.pc + 1 } ∧
      (∃ rest, (u.stk t tgt false).res = args ++ rest) ∧
      (u.thr t).arch.handler = (s.thr t).arch.handler ∧ (u.thr t).arith = (s.thr t).arith ∧
      (u.thr t).arch.p1 = (s.thr t).arch.p1 ∧ (u.thr t).arch.p2 = (s.thr t).arch.p2 ∧ (u.thr t).arch.p3 = (s.thr t).arch.p3

/-- R236, R242, R244: the checks of GATE and GRET in their order, the first that fails raising a gate fault with its subcode in the caller's
frame. Neither word pops by itself, so that no depth raises an exception before them, and a negative one holds fewer cells than any gate's
arguments, none included (subcode 3). The tests of GATE's pointer arguments run from argument 0 up. -/
def Sys2Proof.Claims.GateFaults : Prop :=
  ∀ (t : ThreadId) (g : Guard) (k : BitVec 8) (s s1 s2 : State) (tgt : Level) (args : List PCell), Runs t g 0 0 [] s s1 →
    let e := smGet GateEntry.boot s.gates k.toNat
    let l := curLevel s t
    let lo := if l = .T then (s2.thr t).dwloT else (s2.thr t).dwloS
    let hi := if l = .T then (s2.thr t).dwhiT else (s2.thr t).dwhiS
    let from' := if l = .T then e.entb.getLsbD 44 else e.entb.getLsbD 45
    let fault := fun (sub : BitVec 4) (addr : BitVec 36) (x : State) =>
      Host.Outcome.next (φ := Fault) (ρ := Refusal) (raiseExc t { cause := 9, sub := sub, addr := addr } x)
    let good := fun (i : Nat) (x : PCell) => e.enta.getLsbD (33 + i) = true → Clean [x] ∧ x.val.toNat < 2 ^ 36 ∧
      lo.toNat ≤ x.val.toNat ∧ x.val.toNat + (e.enta.extractLsb' 21 12).toNat ≤ hi.toNat
    let n := ((s.thr t).arch.glink l).nres.toNat
    let caller := s.stk t ((s.thr t).arch.glink l).caller false
    (l ≠ .M →
      (e.enta.getLsbD 47 = false → exec (.gate t g k) s = fault 0 0 s1) ∧
      (e.enta.getLsbD 47 = true → from' = false → exec (.gate t g k) s = fault 1 0 s1) ∧
      (e.enta.getLsbD 47 = true → from' = true →
        ((∀ x : Level, e.enta.extractLsb' 45 2 = levelBits x → levelNum x ≤ levelNum l) → exec (.gate t g k) s = fault 2 0 s1) ∧
        (e.enta.extractLsb' 45 2 = levelBits tgt → levelNum l < levelNum tgt →
          (curDepth s t false < e.narg → exec (.gate t g k) s = fault 3 0 s1) ∧
          ((e.narg : Int) ≤ curDepth s t false → ensureCur t false e.narg s1 = some s2 → curTop s2 t false e.narg = args →
            (∀ i, (h : i < args.length) → (∀ j, (hj : j < i) → good j (args[j]'(by omega))) → e.enta.getLsbD (33 + i) = true →
              (Clean [args[i]] → ¬good i args[i] → exec (.gate t g k) s = fault 4 (args[i].val.setWidth 36) s2) ∧
              (args[i].par ≠ 0 → exec (.gate t g k) s = .next (raiseExc t { cause := 0x0D, sub := 0, addr := 0 } s2)) ∧
              (args[i].par = 0 → args[i].poison ≠ 0 →
                exec (.gate t g k) s = .next (raiseExc t { cause := 0x10, sub := 1, addr := 0 } s2))) ∧
            ((∀ i, (h : i < args.length) → good i args[i]) → (gateStacks e ((s2.thr t).arch.stk tgt)).2 = true →
              exec (.gate t g k) s = fault 5 0 s2))))) ∧
    (l ≠ .T →
      (((s.thr t).arch.glink l).valid = false → exec (.gret t g) s = fault 6 0 s1) ∧
      (((s.thr t).arch.glink l).valid = true →
        (((s.thr t).arch.glink l).frames ≠ 0 → exec (.gret t g) s = fault 7 0 s1) ∧
        (((s.thr t).arch.glink l).frames = 0 →
          curDepth s t false < n ∨ (n ≠ 0 ∧ caller.fits (caller.depth + n) = false) → exec (.gret t g) s = fault 8 0 s1)))

/-- R236, R244: a GRET whose checks pass returns NRES cells to the caller, empties its own level's stacks and linkage and the stacks of
every other level above the caller's, and continues at RPC at the caller's level. That the cells move as they are, a poisoned one or one of bad parity too, is the model's reading (log entry
25). -/
def Sys2Proof.Claims.GateReturnResult : Prop :=
  ∀ (t : ThreadId) (g : Guard) (s s1 s2 : State) (cells : List PCell),
    Runs t g 0 0 [] s s1 →
    let l := curLevel s t
    let k := (s.thr t).arch.glink l
    l ≠ .T → k.valid = true → k.frames = 0 → (k.nres.toNat : Int) ≤ curDepth s t false → levelNum k.caller < levelNum l →
    (s.stk t k.caller false).fits ((s.stk t k.caller false).depth + k.nres.toNat) = true →
    ensureCur t false k.nres.toNat s1 = some s2 → curTop s2 t false k.nres.toNat = cells →
    ∃ u, exec (.gret t g) s = .next u ∧ (u.thr t).arch.level = k.caller ∧ (u.thr t).arch.pc = k.rpc ∧
      ((u.thr t).arch.glink l).valid = false ∧
      (∀ (x : Level) (rs : Bool), levelNum k.caller < levelNum x → (u.stk t x rs).res = [] ∧ (u.stk t x rs).depth = 0) ∧
      (∃ rest, (u.stk t k.caller false).res = cells ++ rest)

/-- A frame on the running level's return stack that passes the checks of R247, its status entry above its PC entry, both resident. -/
structure Sys2Proof.FrameStands (t : ThreadId) (st pc : PCell) (restore : Level) (s : State) : Prop where
  deep : 2 ≤ curDepth s t true
  top : ∃ rest, (s.stk t (curLevel s t) true).res = st :: pc :: rest
  clean : Clean [st, pc]
  kinds : st.val.extractLsb' 46 2 = 3 ∧ pc.val.extractLsb' 46 2 = 3
  levels : st.val.extractLsb' 44 2 = levelBits (curLevel s t) ∧ st.val.extractLsb' 42 2 = levelBits restore ∧
    levelNum restore ≤ levelNum (curLevel s t)
  small : residents s t true ≤ 24

/-- R247, R274, R280, R281, R205, R207: a RETI whose two entries pass the checks of R247 ends the leash. With no source to chain it pops the
frame, releases the frame's source where the thread holds it, and restores LEVEL, HANDLER, IPL, the predicates and the PC from the entries; a level
returned to starts with none of its cells resident, those that were go to its spill slots, and nothing else of memory changes. Where a
configured source of the running level can be recognised against the restored IPL and level, the handler runs on for the best of them
instead: the frame names it, the thread holds it, no hold is released, IPL is its priority, and the PC is the level's vector slot 0. -/
def Sys2Proof.Claims.ReturnFromEntry : Prop :=
  ∀ (t : ThreadId) (g : Guard) (s s1 : State) (st pc : PCell) (restore : Level),
    Runs t g 0 0 [] s s1 → FrameStands t st pc restore s1 →
    let l := curLevel s t
    let from' := (st.val.extractLsb' 21 9).toNat
    let s2 := s1.modThr t fun th => { th with leash := { th.leash with on := false, count := 0 } }
    let s3 := if (s2.src from').held = some t then s2.setSrc from' { s2.src from' with held := none } else s2
    let chain := bestSource s2 fun i => recognisable s2 t (st.val.extractLsb' 37 4) restore i && firstFor s2 t i &&
      decide ((s2.src i).lvl = l)
    let popped := curReplace t true 2 [] s3
    let saved := if restore = l then popped else spillLevel t restore popped
    let v : WAddr := (s.cor t.core).vbase l ++ 0#9
    (chain = none → SpillsOnly t popped saved ∧
      ∃ u, exec (.reti t g) s = .next u ∧ (u.thr t).arch.level = restore ∧ (u.thr t).arch.pc = pc.val.extractLsb' 0 20 ∧
        (u.thr t).arch.handler = st.val.getLsbD 41 ∧ (u.thr t).arch.ipl = st.val.extractLsb' 37 4 ∧
        (u.thr t).arch.p1 = pc.val.getLsbD 20 ∧ (u.thr t).arch.p2 = pc.val.getLsbD 21 ∧ (u.thr t).arch.p3 = pc.val.getLsbD 22 ∧
        (u.thr t).leash.on = false ∧ (u.thr t).skip = decide (st.val.extractLsb' 30 6 = 0x0F) ∧
        (u.thr t).arith = (s.thr t).arith ∧ (restore ≠ l → ∀ rs, (u.stk t restore rs).res = []) ∧
        (∀ i, (u.src i).pend = (s1.src i).pend) ∧ (u.src from').held ≠ some t ∧
        u.mem = saved.mem ∧ u.cores = saved.cores ∧
        ((restore = l ∨ ∀ rs, (s1.stk t restore rs).res = []) → u.mem = s1.mem ∧ u.cores = s1.cores)) ∧
    (∀ i, chain = some i →
      ((s.cor t.core).act = false ∧ (s1.thr t).chainBuf ≠ [] ∧ (s1.thr t).chainLvl = l ∨
        ∀ j < 4, Fetches s2 t.core (v + BitVec.ofNat 20 j)) →
      ∃ u, exec (.reti t g) s = .next u ∧ (u.thr t).arch.level = l ∧ (u.thr t).arch.pc = v ∧
        (u.thr t).arch.handler = (s.thr t).arch.handler ∧ (u.thr t).arch.ipl = (s1.src i).prio ∧
        (u.thr t).arch.p1 = (s.thr t).arch.p1 ∧ (u.thr t).arch.p2 = (s.thr t).arch.p2 ∧ (u.thr t).arch.p3 = (s.thr t).arch.p3 ∧
        (u.thr t).leash.on = false ∧ (u.src i).held = some t ∧ (u.src i).pend = true ∧
        (∀ j, j ≠ i → (u.src j).held = (s1.src j).held) ∧
        (∃ top rest, (u.stk t l true).res = top :: pc :: rest ∧ top.val.extractLsb' 21 9 = BitVec.ofNat 9 i ∧
          top.val.extractLsb' 30 6 = 0 ∧ top.val.extractLsb' 36 12 = st.val.extractLsb' 36 12) ∧
        u.mem = s1.mem ∧ u.cores = s1.cores)

/-! ### Words: memory -/

/-- R121, R122: the effective address of the forms, modulo 2⁴⁸, and what an updating form leaves on the stack. `a` is the address
cell (under the index in an indexed form), `w` the access's width in bytes. -/
def Sys2Proof.Claims.EffectiveAddresses : Prop :=
  ∀ (w : Nat) (a i : PCell), 0 < w →
    (effAddr .base w [a] = a.val ∧ formLeaves .base w [a] = []) ∧
    (effAddr (.mode 0) w [a] = a.val ∧ formLeaves (.mode 0) w [a] = [a.val + BitVec.ofNat 48 w]) ∧
    (effAddr (.mode 1) w [a] = a.val - BitVec.ofNat 48 w ∧ formLeaves (.mode 1) w [a] = [a.val - BitVec.ofNat 48 w]) ∧
    (∀ (m : BitVec 5) (k : Nat), (m, k) ∈ [(2, 1), (3, 2), (4, 3), (5, 4), (6, 6), (7, 12)] →
      effAddr (.mode m) w [i, a] = a.val + i.val * BitVec.ofNat 48 k ∧ formLeaves (.mode m) w [i, a] = []) ∧
    (∀ m : BitVec 5, 8 ≤ m.toNat →
      effAddr (.mode m) w [a] = a.val + BitVec.ofNat 48 (6 * (m.toNat - 7)) ∧ formLeaves (.mode m) w [a] = [])

/-- The loads, with width in bytes and sign extension (R121). -/
def Sys2Proof.loadWords (t : ThreadId) (g : Guard) (form : AddrForm) : List (Instr × Nat × Bool) :=
  [(.ld1 t g form, 1, false), (.ld2 t g form, 2, false), (.ld3 t g form, 3, false), (.ld4 t g form, 4, false),
   (.ld6 t g form, 6, false), (.lds1 t g form, 1, true), (.lds2 t g form, 2, true), (.lds3 t g form, 3, true),
   (.lds4 t g form, 4, true), (.ldd t g form, 12, false)]

/-- The cells that w loaded bytes give, top first: big-endian, extended by zeros or the sign; a double has its high cell on top
(R31, R36). -/
def Sys2Proof.loadedCells (w : Nat) (signed : Bool) (bs : List Byte) : List Cell :=
  if w = 12 then [BitVec.ofNat 48 (bytesNat (bs.take 6)), BitVec.ofNat 48 (bytesNat (bs.drop 6))]
  else if signed then [BitVec.ofInt 48 (BitVec.ofNat (8 * w) (bytesNat bs)).toInt] else [BitVec.ofNat 48 (bytesNat bs)]

/-- A load reads storage of the tile past the D-cache: its checks pass, no comparator matches, no store of the thread lies in the
way, and the bytes read well. -/
structure Sys2Proof.LoadsFrom (t : ThreadId) (k : AccKind) (ea : Cell) (w : Nat) (bs : List Byte) (s s' : State) : Prop where
  region : ∃ r, checkAccess s t (accLevel s t) k ea w 0 = .ok r ∧ r ≠ .host ∧ r ≠ .reg ∧
    (k = .load → usesDcache s t r ea.toNat w = false) ∧ forwardFor s t (decide (k = .lr)) r ea.toNat w = .read ∧
    ∃ res, readTarget s t r (if k = .lr then .normal else viaOf s t (accLevel s t) r) ea.toNat w = (res, s') ∧
      readExc (BitVec.ofNat 36 ea.toNat) res = none ∧ readBytes res = bs
  unwatched : dataHits s t false ea.toNat w = 0

/-- R121, R122, R31, R36: a load from storage of the tile replaces its address cells by the loaded value, under the updated address if
its form leaves one; LR6 also takes the reservation of the cell (R136). -/
def Sys2Proof.Claims.LoadResults : Prop :=
  ∀ (t : ThreadId) (g : Guard) (form : AddrForm) (cells : List PCell) (bs : List Byte) (s s1 s2 : State), Clean cells →
    (∀ x ∈ loadWords t g form,
      Runs t g (formCells form) ((if x.2.1 = 12 then 2 else 1) + (if formUpdates form then 1 else 0)) cells s s1 →
      LoadsFrom t .load (effAddr form x.2.1 cells) x.2.1 bs s1 s2 → bs.length = x.2.1 →
      exec x.1 s = .next (wordDone t (formCells form)
        ((formLeaves form x.2.1 cells ++ loadedCells x.2.1 x.2.2 bs).map PCell.of) s2)) ∧
    (Runs t g 1 1 cells s s1 → LoadsFrom t .lr (effAddr .base 6 cells) 6 bs s1 s2 →
      exec (.lr6 t g) s = .next (retireNext t ((curReplace t false 1 [PCell.of (BitVec.ofNat 48 (bytesNat bs))] s2).modThr t
        fun th => { th with resv := some (cellKey (physOf t (effAddr .base 6 cells).toNat)) })))

/-- The stores, with width in bytes (R121). -/
def Sys2Proof.storeWords (t : ThreadId) (g : Guard) (form : AddrForm) : List (Instr × Nat) :=
  [(.st1 t g form, 1), (.st2 t g form, 2), (.st3 t g form, 3), (.st4 t g form, 4), (.st6 t g form, 6), (.std t g form, 12)]

/-- R121, R122, R124: a store whose checks pass enters the store buffer, behind the stores there, with its address and its bytes,
high byte first; it writes no memory yet. With 8 stores there the word waits, and nothing changes (R219). -/
def Sys2Proof.Claims.StoreResults : Prop :=
  ∀ (t : ThreadId) (g : Guard) (form : AddrForm) (cells vs : List PCell) (s s1 : State) (r : Region),
    ∀ x ∈ storeWords t g form, cells.length = formCells form → vs.length = (if x.2 = 12 then 2 else 1) →
      Clean (cells ++ vs) →
      Runs t g (formCells form + (if x.2 = 12 then 2 else 1)) (if formUpdates form then 1 else 0) (cells ++ vs) s s1 →
      let ea := effAddr form x.2 (cells ++ vs)
      checkAccess s1 t (accLevel s1 t) .store ea x.2 (vs.headD (PCell.of 0)).val = .ok r →
      dataHits s1 t true ea.toNat x.2 = 0 →
      let bytes := if x.2 = 12 then vs.flatMap fun v => natBytes 6 v.val.toNat
        else natBytes x.2 (vs.headD (PCell.of 0)).val.toNat
      let e : SbEntry :=
        { thread := t, lvl := accLevel s1 t, ea := BitVec.ofNat 36 ea.toNat, bytes := bytes, par := 0, phase := .waiting }
      ((s1.cor t.core).sb.length < 8 →
        exec x.1 s = .next (wordDone t (formCells form + vs.length) ((formLeaves form x.2 (cells ++ vs)).map PCell.of)
          (s1.modCor t.core fun k => { k with sb := k.sb ++ [e] }))) ∧
      (8 ≤ (s1.cor t.core).sb.length → exec x.1 s = .next s1)

/-- R137 to R139: SC6 writes its cell only under its reservation, pushes the flag and ends the reservation; TAS pushes the old
byte and writes 0xFF; CAS6 offers its request at the semaphore port, behind those that stand there (the model's order, log entry 128),
with the thread's owner ID and group, and waits.
While a store of the thread is still to be accepted each of them, its checks passed, waits and changes nothing. -/
def Sys2Proof.Claims.AtomicResults : Prop :=
  ∀ (t : ThreadId) (g : Guard) (a x y : PCell) (s s1 : State) (r : Region),
    (storesOf s1 t ≠ [] →
      (Runs t g 2 1 [a, x] s s1 → Clean [a, x] → checkAccess s1 t (accLevel s1 t) .sc a.val 6 x.val = .ok r →
        exec (.sc6 t g) s = .next s1) ∧
      (Runs t g 1 1 [a] s s1 → Clean [a] → checkAccess s1 t (accLevel s1 t) .sc a.val 1 0 = .ok r → exec (.tas t g) s = .next s1) ∧
      (Runs t g 3 2 [a, x, y] s s1 → Clean [a, x, y] → checkAccess s1 t (accLevel s1 t) .cas a.val 6 0 = .ok r →
        exec (.cas6 t g) s = .next s1)) ∧
    (storesOf s1 t = [] → Runs t g 2 1 [a, x] s s1 → Clean [a, x] → checkAccess s1 t (accLevel s1 t) .sc a.val 6 x.val = .ok r →
      dataHits s1 t true a.val.toNat 6 = 0 →
      let has := decide ((s1.thr t).resv = some (cellKey (physOf t a.val.toNat)))
      let s2 := if has then writeTarget t r .normal a.val.toNat (natBytes 6 x.val.toNat) s1 else s1
      exec (.sc6 t g) s = .next (retireNext t
        ((curReplace t false 2 [PCell.of (if has then BitVec.allOnes 48 else 0)] s2).modThr t fun th => { th with resv := none }))) ∧
    (∀ (old : Byte) (res : ReadRes) (s2 : State), storesOf s1 t = [] → Runs t g 1 1 [a] s s1 → Clean [a] →
      checkAccess s1 t (accLevel s1 t) .sc a.val 1 0 = .ok r →
      dataHits s1 t true a.val.toNat 1 = 0 → dataHits s1 t false a.val.toNat 1 = 0 →
      readTarget s1 t r .normal a.val.toNat 1 = (res, s2) →
      readExc (BitVec.ofNat 36 a.val.toNat) res = none → readBytes res = [old] →
      exec (.tas t g) s = .next (wordDone t 1 [PCell.of (BitVec.ofNat 48 old.toNat)]
        (writeTarget t r .normal a.val.toNat [0xFF] s2))) ∧
    (storesOf s1 t = [] → Runs t g 3 2 [a, x, y] s s1 → Clean [a, x, y] → checkAccess s1 t (accLevel s1 t) .cas a.val 6 0 = .ok r →
      dataHits s1 t true a.val.toNat 6 = 0 → dataHits s1 t false a.val.toNat 6 = 0 → ownerHeld s1 t = false →
      let q : SemReq :=
        { thread := t, addr := BitVec.ofNat 28 (a.val.toNat - 0x20000000), exp := y.val, new := x.val
          owner := s1.node ++ BitVec.ofNat 7 t.val, group := (s1.thr t).semGroup }
      exec (.cas6 t g) s = .next ({ s1 with ports := { s1.ports with semReq := s1.ports.semReq ++ [q] } }.modThr t fun th =>
        { th with pend := .cas6 (a.val.setWidth 36) .offered }))

/-- R131 to R133, R147 to R150: with no store of the thread outstanding FENCE goes on, the guards after it being read after it (R57), and FLUSH stays in flight, to invalidate the sets of
the core's D-cache in the core cycles that follow (with a store outstanding both wait); INVAL
drops one line; PST writes a word with a fresh code (its low 12 bits on a core in W12) to the shared program store or to the local
program RAM of the thread's core, PLD reads one there or in the boot ROM, a word of the local RAM whose parity fails raising program
parity, a PST to the boot ROM a bus error, and PSYNC drops a line of the I-cache. -/
def Sys2Proof.Claims.OrderAndCacheResults : Prop :=
  ∀ (t : ThreadId) (g : Guard) (a w : PCell) (s s1 : State), Clean [a, w] →
    (Runs t g 0 0 [] s s1 → storesOf s1 t = [] →
      exec (.fence t g) s = .next (retireNext t (s1.modThr t fun th => { th with oldPreds := [] })) ∧
      exec (.flush t g) s = .next (s1.modThr t fun th => { th with pend := .flush 0 })) ∧
    (Runs t g 0 0 [] s s1 → storesOf s1 t ≠ [] → exec (.fence t g) s = .next s1 ∧ exec (.flush t g) s = .next s1) ∧
    (Runs t g 1 0 [a] s s1 → a.val.toNat < 2 ^ 36 →
      exec (.inval t g) s = .next (wordDone t 1 [] (s1.modCor t.core fun k =>
        { k with
          dlines := k.dlines.filter fun l => decide (l.addr ≠ a.val.toNat - a.val.toNat % 48)
          dfills := k.dfills.filter fun l => decide (l.1 ≠ a.val.toNat - a.val.toNat % 48) }))) ∧
    (Runs t g 2 0 [a, w] s s1 → curLevel s t ≠ .T → 0x10000 ≤ a.val.toNat → a.val.toNat < 0x90000 →
      let word : PWord := if (s1.cor t.core).w12 then BitVec.ofNat 14 (w.val.toNat % 4096) else w.val.setWidth 14
      exec (.pst t g) s = .next (wordDone t 2 []
        { s1 with sprog := smPut sharedKill s1.sprog a.val.toNat (encShared word) })) ∧
    (Runs t g 2 0 [a, w] s s1 → curLevel s t ≠ .T → a.val.toNat < 0x8000 →
      let word : PWord := if (s1.cor t.core).w12 then BitVec.ofNat 14 (w.val.toNat % 4096) else w.val.setWidth 14
      exec (.pst t g) s = .next (wordDone t 2 [] (s1.modCor t.core fun k =>
        { k with lprog := smPut localKill k.lprog a.val.toNat (encLocal word) }))) ∧
    (Runs t g 1 1 [a] s s1 → a.val.toNat < 0x8000 →
      let v := smGet localKill (s1.cor t.core).lprog a.val.toNat
      (localOk v = true → exec (.pld t g) s = .next (wordDone t 1 [PCell.of ((v.extractLsb' 0 14).setWidth 48)] s1)) ∧
      (localOk v = false → exec (.pld t g) s =
        .next (raiseExc t { cause := 0x0E, sub := 0, addr := a.val.setWidth 36 } s1))) ∧
    (0xFF000 ≤ a.val.toNat → a.val.toNat < 0x100000 →
      (Runs t g 1 1 [a] s s1 → exec (.pld t g) s =
        .next (wordDone t 1 [PCell.of ((Config.bootWord a.val.toNat).setWidth 48)] s1)) ∧
      (Runs t g 2 0 [a, w] s s1 → curLevel s t ≠ .T → exec (.pst t g) s =
        .next (raiseExc t { cause := 3, sub := 2, addr := a.val.setWidth 36 } s1))) ∧
    (∀ (word : PWord) (s2 : State), Runs t g 1 1 [a] s s1 → 0x10000 ≤ a.val.toNat → a.val.toNat < 0x90000 →
      readShared s1 a.val.toNat = ((word, false), s2) →
      exec (.pld t g) s = .next (wordDone t 1 [PCell.of (BitVec.ofNat 48 word.toNat)] s2)) ∧
    (Runs t g 1 0 [a] s s1 → 0x10000 ≤ a.val.toNat → a.val.toNat < 0x90000 →
      ∃ u, exec (.psync t g) s = .next u ∧
        (u.cor t.core).ilines = (s1.cor t.core).ilines.filter fun l => decide (l.addr ≠ a.val.toNat - a.val.toNat % 8))
/-! ### Words: block instructions, time, waits, work, leashes -/

/-- What a block instruction meets on its first step of m bytes: its checks pass and no comparator matches (R152). -/
structure Sys2Proof.BlockReads (t : ThreadId) (a : Cell) (m : Nat) (bs : List Byte) (s s' : State) : Prop where
  read : ∃ r res, checkAccess s t (accLevel s t) .blockRead a m 0 = .ok r ∧ r ≠ .host ∧
    readTarget s t r .normal a.toNat m = (res, s') ∧ readExc (a.setWidth 36) res = none ∧ readBytes res = bs
  unwatched : dataHits s t false a.toNat m = 0

/-- A block instruction's step may write m bytes to storage of the tile at an address. -/
structure Sys2Proof.BlockWrites (t : ThreadId) (a : Cell) (m : Nat) (r : Region) (s : State) : Prop where
  check : checkAccess s t (accLevel s t) .blockWrite a m 0 = .ok r
  home : r ≠ .host ∧ r ≠ .keep
  unwatched : dataHits s t true a.toNat m = 0

/-- FILL's steps from a count of bytes, an address and a state on, up to the state in which none is left: each writes the leading
bytes of its cell, 6 of them or what is left (R152, R154). -/
inductive Sys2Proof.FillSteps (t : ThreadId) (x : Cell) : Nat → Cell → State → State → Prop where
  | done (a : Cell) (s : State) : FillSteps t x 0 a s s
  | step (n : Nat) (a : Cell) (r : Region) (s u : State) : 0 < n → BlockWrites t a (min 6 n) r s →
      FillSteps t x (n - min 6 n) (a + BitVec.ofNat 48 (min 6 n))
        (writeTarget t r .normal a.toNat ((natBytes 6 x.toNat).take (min 6 n)) s) u → FillSteps t x n a s u

/-- MOVE's steps: each reads bytes at the source and writes them at the destination, whose checks come before the read (R152, R153). -/
inductive Sys2Proof.MoveSteps (t : ThreadId) : Nat → Cell → Cell → State → State → Prop where
  | done (src dst : Cell) (s : State) : MoveSteps t 0 src dst s s
  | step (n : Nat) (src dst : Cell) (r : Region) (bs : List Byte) (s s1 u : State) : 0 < n → BlockReads t src (min 6 n) bs s s1 →
      bs.length = min 6 n → BlockWrites t dst (min 6 n) r s → BlockWrites t dst (min 6 n) r s1 →
      MoveSteps t (n - min 6 n) (src + BitVec.ofNat 48 (min 6 n)) (dst + BitVec.ofNat 48 (min 6 n))
        (writeTarget t r .normal dst.toNat bs s1) u → MoveSteps t n src dst s u

/-- CSUM's steps: each adds the bytes it reads to the one's-complement sum; the sum and the state at the end (R152, R155). -/
inductive Sys2Proof.CsumSteps (t : ThreadId) : Nat → Cell → Nat → State → Nat → State → Prop where
  | done (src : Cell) (acc : Nat) (s : State) : CsumSteps t 0 src acc s acc s
  | step (n : Nat) (src : Cell) (acc : Nat) (bs : List Byte) (s s1 : State) (out : Nat) (u : State) : 0 < n →
      BlockReads t src (min 6 n) bs s s1 →
      CsumSteps t (n - min 6 n) (src + BitVec.ofNat 48 (min 6 n)) (ocSum (acc % 65536) bs) s1 out u → CsumSteps t n src acc s out u

/-- R151 to R156: a block instruction whose steps all pass, of whatever length, runs to its end and retires, its operands popped; CSUM
pushes the sum's 16 bits. While a store of the thread is still to be accepted it waits; that one with n = 0, which has no first step,
does so too is the model's choice (log entry 88). -/
def Sys2Proof.Claims.BlockRuns : Prop :=
  ∀ (t : ThreadId) (g : Guard) (y : Option Nat) (n a x : PCell) (sum : Nat) (s s1 u : State), Clean [n, a, x] →
    (storesOf s1 t = [] →
      (Runs t g 3 0 [n, a, x] s s1 →
        (FillSteps t x.val n.val.toNat a.val s1 u → exec (.fill t g none) s = .next (wordDone t 3 [] u)) ∧
        (MoveSteps t n.val.toNat x.val a.val s1 u → exec (.move t g none) s = .next (wordDone t 3 [] u))) ∧
      (Runs t g 3 1 [n, a, x] s s1 → CsumSteps t n.val.toNat a.val x.val.toNat s1 sum u →
        exec (.csum t g none) s = .next (wordDone t 3 [PCell.of (BitVec.ofNat 48 (sum % 65536))] u))) ∧
    (storesOf s1 t ≠ [] →
      (Runs t g 3 0 [n, a, x] s s1 → exec (.fill t g y) s = .next s1 ∧ exec (.move t g y) s = .next s1) ∧
      (Runs t g 3 1 [n, a, x] s s1 → exec (.csum t g y) s = .next s1))

/-- R151 to R156: with n = 0 the block instructions go on at once. With n from 1 to 6 bytes they take their one step and retire; with
more, and a request recognised at once, they take one step of 6 bytes and yield with their progress on the stack. FILL writes
the leading bytes of its cell, MOVE what it read, and CSUM leaves the one's-complement sum. The yield clauses are the model's choice (log
entry 22): when a request is recognised comes with the command, and a 1 there yields after one step. -/
def Sys2Proof.Claims.BlockSteps : Prop :=
  ∀ (t : ThreadId) (g : Guard) (y : Option Nat) (n a x : PCell) (bs : List Byte) (r : Region) (s s1 s2 : State),
    Clean [n, a, x] → storesOf s1 t = [] →
    let m := min 6 n.val.toNat
    let more := fun (u : Cell) (s' : State) => Host.Outcome.next (φ := Fault) (ρ := Refusal)
      ((curReplace t false 3 [PCell.of (n.val - 6), PCell.of (a.val + 6), PCell.of u] s').modThr t fun th => { th with pend := .none })
    (Runs t g 3 0 [n, a, x] s s1 →
      (n.val = 0 → exec (.fill t g y) s = .next (wordDone t 3 [] s1) ∧ exec (.move t g y) s = .next (wordDone t 3 [] s1)) ∧
      (0 < n.val.toNat → BlockWrites t a.val m r s1 →
        let s3 := writeTarget t r .normal a.val.toNat ((natBytes 6 x.val.toNat).take m) s1
        (n.val.toNat ≤ 6 → exec (.fill t g y) s = .next (wordDone t 3 [] s3)) ∧
        (6 < n.val.toNat → exec (.fill t g (some 1)) s = more x.val s3)) ∧
      (0 < n.val.toNat → BlockReads t x.val m bs s1 s2 → bs.length = m → bs ≠ [] → BlockWrites t a.val m r s1 →
        BlockWrites t a.val m r s2 →
        let s3 := writeTarget t r .normal a.val.toNat bs s2
        (n.val.toNat ≤ 6 → exec (.move t g y) s = .next (wordDone t 3 [] s3)) ∧
        (6 < n.val.toNat → exec (.move t g (some 1)) s = more (x.val + 6) s3))) ∧
    (Runs t g 3 1 [n, a, x] s s1 →
      (n.val = 0 → exec (.csum t g y) s = .next (wordDone t 3 [PCell.of (x.val &&& 0xFFFF)] s1)) ∧
      (0 < n.val.toNat → BlockReads t a.val m bs s1 s2 →
        let sum := BitVec.ofNat 48 (ocSum (x.val.toNat % 65536) bs)
        (n.val.toNat ≤ 6 → exec (.csum t g y) s = .next (wordDone t 3 [PCell.of (sum &&& 0xFFFF)] s2)) ∧
        (6 < n.val.toNat → exec (.csum t g (some 1)) s = more sum s2)))

/-- The value of a time double in units of 2⁻¹⁶ ns: SEC signed, the nanoseconds unsigned (R45, R47). -/
def Sys2Proof.timeValue (hi lo : Cell) : Int := hi.toInt * 65536000000000 + lo.toNat

/-- A double in normal form with a value, SEC cut to its low 48 bits (R49). -/
def Sys2Proof.IsTime (v : Int) (hi lo : Cell) : Prop :=
  lo.toNat < 65536000000000 ∧ ∃ k : Int, v = k * 65536000000000 + lo.toNat ∧ hi = BitVec.ofInt 48 k

/-- R46 to R51, R169: the time instructions compute on exact values and deliver normal forms. OV sets exactly where the result's
SEC lies outside the signed range of a cell. TNOW delivers the core's copy of the timebase. -/
def Obligations.TimeResults : Prop :=
  ∀ (t : ThreadId) (g : Guard) (a b c d : PCell) (s s1 : State),
    let ov := fun (v : Int) => decide (v < -(2 ^ 47 * 65536000000000) ∨ 2 ^ 47 * 65536000000000 ≤ v)
    let done := fun (n : Nat) (v : Int) (hi lo : Cell) => Host.Outcome.next (φ := Fault) (ρ := Refusal)
      (retireNext t (withOv t (ov v) (curReplace t false n [PCell.of hi, PCell.of lo] s1)))
    (Runs t g 0 2 [] s s1 → ∃ hi lo, IsTime (s1.copyNow t.core : Int) hi lo ∧
      exec (.tnow t g) s = .next (wordDone t 0 [PCell.of hi, PCell.of lo] s1)) ∧
    (Runs t g 4 2 [d, c, b, a] s s1 → Clean [d, c, b, a] →
      (∃ hi lo, IsTime (timeValue b.val a.val + timeValue d.val c.val) hi lo ∧
        exec (.tadd t g) s = done 4 (timeValue b.val a.val + timeValue d.val c.val) hi lo) ∧
      (∃ hi lo, IsTime (timeValue b.val a.val - timeValue d.val c.val) hi lo ∧
        exec (.tsub t g) s = done 4 (timeValue b.val a.val - timeValue d.val c.val) hi lo)) ∧
    (Runs t g 4 1 [d, c, b, a] s s1 → Clean [d, c, b, a] →
      exec (.tcmp t g) s = .next (wordDone t 4 [PCell.of (
        if timeValue b.val a.val < timeValue d.val c.val then BitVec.allOnes 48
        else if timeValue b.val a.val = timeValue d.val c.val then 0 else 1)] s1)) ∧
    (Runs t g 3 2 [c, b, a] s s1 → Clean [c, b, a] →
      ∃ (v : Int) (hi lo : Cell),
        (let e := 2 * (v * 2 ^ 41 - timeValue b.val a.val * c.val.toNat)
         (-(2 ^ 41) < e ∧ e < 2 ^ 41) ∨ ((e = 2 ^ 41 ∨ e = -(2 ^ 41)) ∧ v % 2 = 0)) ∧
        IsTime v hi lo ∧ exec (.tscale t g) s = done 3 v hi lo)

/-- The word parks: it stays in flight with its wait, its operands on the stack. -/
def Sys2Proof.parked (t : ThreadId) (p : Pend) (s : State) : State := s.modThr t fun th => { th with pend := p }

/-- A thread has taken an item in GETWORK (R13, R181 to R184): the item is current, its descriptor and deadline stand in the thread's
registers, the ADDR entry of the word after next lies on the return stack, and the thread continues at the node's entry. -/
structure Sys2Proof.Takes (t : ThreadId) (it : Item) (s u : State) : Prop where
  holds : (u.thr t).cur = some it.id ∧ (u.thr t).slot = none ∧ (u.thr t).pend = .none
  entry : (u.thr t).arch.pc = (s.nodeOf it.node).pc
  desc : (u.thr t).desc0 = it.desc0 ∧ (u.thr t).desc1 = it.desc1 ∧ (u.thr t).desc2 = it.desc2 ∧ (u.thr t).desc3 = it.desc3
  work : (u.thr t).wnode = it.node ∧ (u.thr t).wvisit = it.visit
  deadline : ∃ hi lo, IsTime it.deadline hi lo ∧ (u.thr t).dl = { hi := hi, lo := lo }
  pushed : ∃ rest, (u.stk t (curLevel s t) true).res =
    PCell.of (BitVec.ofNat 48 (2 ^ 46 + ((s.thr t).arch.pc.toNat + 2) % 2 ^ 20)) :: rest
  item : ∃ x, findItem u it.id = some x ∧ x.place = .current t ∧ x.taken = true

/-- R170 to R176: WAITT ends at its limit, WFE at its event (EV clears, flag true) or its limit (flag false), the event first; otherwise
they park. A limit with bit 47 of its high cell set never comes. GETWORK without an item ends at its limit or parks, with THR.DL at
the infinite deadline; with an item in the thread's slot it takes it at once. -/
def Sys2Proof.Claims.WaitResults : Prop :=
  ∀ (t : ThreadId) (g : Guard) (hi lo : PCell) (s s1 : State), Clean [hi, lo] →
    let d : Dbl := { hi := hi.val, lo := lo.val }
    let now := hi.val.getLsbD 47 = false ∧ timeValue hi.val lo.val ≤ (s1.copyNow t.core : Int)
    (Runs t g 2 0 [hi, lo] s s1 →
      (now → exec (.waitt t g) s = .next (wordDone t 2 [] s1)) ∧
      (¬now → exec (.waitt t g) s = .next (parked t (.waitt d) s1))) ∧
    (Runs t g 2 1 [hi, lo] s s1 →
      ((s1.thr t).ev = true → exec (.wfe t g) s = .next (retireNext t
        ((curReplace t false 2 [PCell.of (BitVec.allOnes 48)] s1).modThr t fun th => { th with ev := false }))) ∧
      ((s1.thr t).ev = false → now → exec (.wfe t g) s = .next (wordDone t 2 [PCell.of 0] s1)) ∧
      ((s1.thr t).ev = false → ¬now → exec (.wfe t g) s = .next (parked t (.wfe d) s1))) ∧
    (Runs t g 2 0 [hi, lo] s s1 → currentItem s1 t = none → (s1.thr t).slot = none →
      let s2 := s1.modThr t fun th => { th with dl := { hi := 0x7FFFFFFFFFFF, lo := 0x3B9AC9FFFFFF } }
      (now → exec (.getwork t g) s = .next (wordDone t 2 [] s2)) ∧
      (¬now → exec (.getwork t g) s = .next (parked t (.getwork d) s2))) ∧
    (∀ it : Item, Runs t g 2 0 [hi, lo] s s1 → currentItem s1 t = none → (s1.thr t).slot = some it.id → findItem s1 it.id = some it →
      (rsRoom s1 t 1 = true → ∃ u, exec (.getwork t g) s = .next u ∧ Takes t it s u) ∧
      (rsRoom s1 t 1 = false → exec (.getwork t g) s = .next (raiseExc t { cause := 8, sub := 0, addr := 0 } s1)))

/-- R174, R175: SEV sets EV of the thread it names, raises source 320 + n, and ends that thread's WFE; here the thread named does not
wait. At T level only threads of the own core may be named; another takes a privilege exception with the number as ADDR. -/
def Sys2Proof.Claims.SendEventResult : Prop :=
  ∀ (t u : ThreadId) (g : Guard) (n : PCell) (s s1 : State), Runs t g 1 0 [n] s s1 → Clean [n] → n.val.toNat = u.val →
    ((curLevel s t ≠ .T ∨ u.core = t.core) → (s1.thr u).pend = .none →
      exec (.sev t g) s = .next (retireNext t (raiseSrc (320 + u.val)
        ((curReplace t false 1 [] s1).modThr u fun th => { th with ev := true })))) ∧
    (curLevel s t = .T → u.core ≠ t.core →
      exec (.sev t g) s = .next (raiseExc t { cause := 5, sub := 1, addr := BitVec.ofNat 36 u.val } s1))

/-- R185: FORWARD records its destination for the current item: none, an enabled node, or an egress port. -/
def Sys2Proof.Claims.ForwardResult : Prop :=
  ∀ (t : ThreadId) (g : Guard) (c : PCell) (it : Item) (k : BitVec 8) (p : BitVec 10) (s s1 : State),
    Runs t g 1 0 [c] s s1 → Clean [c] → currentItem s1 t = some it →
    let done := fun (d : Dest) => Host.Outcome.next (φ := Fault) (ρ := Refusal)
      (retireNext t (modItem (curReplace t false 1 [] s1) it.id fun x => { x with dest := d }))
    (c.val = 0 → exec (.forward t g) s = done .none) ∧
    (c.val.toNat = 2 ^ 46 + k.toNat → (s1.nodeOf k).en = true → exec (.forward t g) s = done (.node k)) ∧
    (c.val.toNat = 2 * 2 ^ 46 + p.toNat → exec (.forward t g) s = done (.port p))

/-- R18, R186: with the thread's stores accepted, DROPW and a DONE without a recorded node make the current item ready for release:
ACTION is DROP, or FORWARD with the port recorded; a marked item becomes CANCELLED (R382). The thread holds no item any more, and
the word retires. With a node recorded that is enabled, DONE queues the item there for its next visit, eligible 3 core cycles later (R13). -/
def Sys2Proof.Claims.VisitEndResults : Prop :=
  ∀ (t : ThreadId) (g : Guard) (it : Item) (s s1 : State), Runs t g 0 0 [] s s1 → currentItem s1 t = some it → storesOf s1 t = [] →
    it.tag = none → (∀ x ∈ s1.fetch.items, ∀ k, x.tag ≠ some (k, .granted)) → s1.fetch.items.countP (fun x => decide (x.id = it.id)) = 1 →
    let ends := fun (i : Instr) (act : BitVec 2) (port : BitVec 10) => ∃ u x, exec i s = .next u ∧ (u.thr t).cur = none ∧
      (u.thr t).arch.pc = (s.thr t).arch.pc + 1 ∧ findItem u it.id = some x ∧ x.place = .ready ∧ x.action = act ∧ x.port = port ∧
      x.bookW = none ∧ x.bookP = none ∧ x.token = none ∧ u.mem = s1.mem
    (it.marked = true → ends (.doneW t g) 2 (it.desc1.extractLsb' 38 10) ∧ ends (.dropw t g) 2 (it.desc1.extractLsb' 38 10)) ∧
    (it.marked = false →
      ends (.dropw t g) 1 (it.desc1.extractLsb' 38 10) ∧
      (it.dest = .none → ends (.doneW t g) 1 (it.desc1.extractLsb' 38 10)) ∧
      (∀ p, it.dest = .port p → ends (.doneW t g) 0 p) ∧
      (∀ k, it.dest = .node k → (s1.nodeOf k).en = true → ∃ u x, exec (.doneW t g) s = .next u ∧ (u.thr t).cur = none ∧
        findItem u it.id = some x ∧ x.place = .queued ∧ x.node = k ∧ visitPrio u x = (u.nodeOf k).prio ∧
        x.eligCyc = s1.fetch.cycle + 3 ∧ x.visit.toNat = min 255 (it.visit.toNat + 1) ∧ x.dest = .none ∧ x.firstDone = true ∧ x.edits = []))

/-- As the turn of tag k leaves item `it`, it passes to the item `w` that was accepted first among those that ask for it: one that is not current
keeps the grant, one whose thread v is parked in TAG goes on with the tag held and true pushed (R380, R381). -/
def Sys2Proof.TagPasses (k : BitVec 32) (w it : Item) (v : ThreadId) (d : Dbl) (s u : State) : Prop :=
  w ∈ s.fetch.items → w.id ≠ it.id → (w.tag = some (k, .waiting) ∨ w.tag = some (k, .lodged)) →
    (∀ x ∈ s.fetch.items, x.id = w.id → x = w) →
    (∀ x ∈ s.fetch.items, x.id ≠ it.id → x.tag = some (k, .waiting) ∨ x.tag = some (k, .lodged) → w.id ≤ x.id) →
    ((∀ z, w.place ≠ .current z) → findItem u w.id = some { w with tag := some (k, .granted) }) ∧
    (w.place = .current v → (s.thr v).cur = some w.id → (s.thr v).pend = .tag k d → (s.thr v).inj = none → mayWake s v = true →
      (s.thr v).robPar = false → pcHits s v = 0 → 3 ≤ (s.stk v (curLevel s v) false).res.length → residents s v false ≤ 16 →
      findItem u w.id = some { w with tag := some (k, .held) } ∧ (u.thr v).pend = .none ∧
      (∃ rest, (u.stk v (curLevel s v) false).res = PCell.of (BitVec.allOnes 48) :: rest) ∧
      (u.thr v).arch.pc = (s.thr v).arch.pc + 1)

/-- R114, R186, R381: a DONE, a DROPW or a KILL by an item that holds a tag takes the tag from it and ends its visit, and the tag's turn
passes on in order. For a KILL the thread's fetch slot is empty here. -/
def Sys2Proof.Claims.TaggedVisitEnds : Prop :=
  ∀ (t v : ThreadId) (g : Guard) (it w : Item) (k : BitVec 32) (d : Dbl) (s s1 : State), Runs t g 0 0 [] s s1 →
    currentItem s1 t = some it → it.tag = some (k, .held) → s1.fetch.items.countP (fun x => decide (x.id = it.id)) = 1 →
    (∀ x ∈ s1.fetch.items, (∀ e, x.tag ≠ some (e, .granted)) ∧ (x.id ≠ it.id → x.tag ≠ some (k, .held))) → v ≠ t →
    ∀ i ∈ [Instr.doneW t g, .dropw t g, .kill t g], (i ≠ .kill t g → storesOf s1 t = []) → (i = .kill t g → (s1.thr t).slot = none) →
      ∃ u x, exec i s = .next u ∧ (u.thr t).cur = none ∧ (u.thr t).arch.pc = (s.thr t).arch.pc + 1 ∧
        findItem u it.id = some x ∧ x.tag = none ∧ (∀ z, x.place ≠ .current z) ∧ TagPasses k w it v d s1 u ∧
        ((∀ y ∈ s1.fetch.items, y.id ≠ it.id → ∀ st, y.tag ≠ some (k, st)) → ∀ y ∈ u.fetch.items, ∀ st, y.tag ≠ some (k, st))

/-- R187, R188, R189, R380, R381: a TAG on a free tag in an ATOMIC-TAG node takes it at once and pushes true. UNTAG gives up the tag its item
holds, and where it holds none does nothing; the item accepted first among those that ask for the tag is granted it: one whose thread
is parked in TAG goes on with the tag held and true pushed, one that is not current keeps the grant. SETLAUNCH records its time,
normalised, when it lies no more than one second ahead of the core's copy. -/
def Sys2Proof.Claims.TagAndLaunchResults : Prop :=
  ∀ (t v : ThreadId) (g : Guard) (a b c : PCell) (it w : Item) (k : BitVec 32) (d : Dbl) (s s1 : State), currentItem s1 t = some it →
    (Runs t g 3 1 [c, b, a] s s1 → Clean [c, b, a] → (s1.nodeOf it.node).ord = .atomicTag → a.val.toNat < 2 ^ 32 → it.tag = none →
      (∀ x ∈ s1.fetch.items, ∀ st, x.tag ≠ some (a.val.setWidth 32, st)) →
      ∃ u x, exec (.tag t g) s = .next u ∧ findItem u it.id = some x ∧ x.tag = some (a.val.setWidth 32, .held) ∧
        (∃ rest, (u.stk t (curLevel s t) false).res = PCell.of (BitVec.allOnes 48) :: rest) ∧
        (u.thr t).arch.pc = (s.thr t).arch.pc + 1) ∧
    (Runs t g 0 0 [] s s1 → (∀ x, it.tag ≠ some (x, .held)) → exec (.untag t g) s = .next (retireNext t s1)) ∧
    (Runs t g 0 0 [] s s1 → it.tag = some (k, .held) →
      (∀ x ∈ s1.fetch.items, (∀ e, x.tag ≠ some (e, .granted)) ∧ (x.id ≠ it.id → x.tag ≠ some (k, .held))) →
      let gaveUp := modItem s1 it.id fun x => { x with tag := none }
      ((∀ x ∈ s1.fetch.items, x.id ≠ it.id → ∀ st, x.tag ≠ some (k, st)) → exec (.untag t g) s = .next (retireNext t gaveUp)) ∧
      (w ∈ s1.fetch.items → w.id ≠ it.id → (w.tag = some (k, .waiting) ∨ w.tag = some (k, .lodged)) →
        (∀ x ∈ s1.fetch.items, x.id = w.id → x = w) →
        (∀ x ∈ s1.fetch.items, x.tag = some (k, .waiting) ∨ x.tag = some (k, .lodged) → w.id ≤ x.id) →
        ((∀ z, w.place ≠ .current z) → exec (.untag t g) s =
          .next (retireNext t (modItem gaveUp w.id fun x => { x with tag := some (k, .granted) }))) ∧
        (w.place = .current v → v ≠ t → (s1.thr v).cur = some w.id → (s1.thr v).pend = .tag k d → (s1.thr v).inj = none →
          mayWake s1 v = true → (s1.thr v).robPar = false → pcHits s1 v = 0 → 3 ≤ (s1.stk v (curLevel s1 v) false).res.length → residents s1 v false ≤ 16 →
          ∃ u x y, exec (.untag t g) s = .next u ∧ findItem u it.id = some x ∧ x.tag = none ∧
            findItem u w.id = some y ∧ y.tag = some (k, .held) ∧ (u.thr v).pend = .none ∧
            (∃ rest, (u.stk v (curLevel s1 v) false).res = PCell.of (BitVec.allOnes 48) :: rest) ∧
            (u.thr v).arch.pc = (s1.thr v).arch.pc + 1 ∧ (u.thr t).arch.pc = (s.thr t).arch.pc + 1))) ∧
    (Runs t g 2 0 [b, a] s s1 → Clean [b, a] → timeValue b.val a.val ≤ (s1.copyNow t.core : Int) + 65536000000000 →
      ∃ hi lo, IsTime (timeValue b.val a.val) hi lo ∧
        exec (.setlaunch t g) s = .next (retireNext t (modItem (curReplace t false 2 [] s1) it.id fun x =>
          { x with launch := some { hi := hi, lo := lo } })))

/-- R250, R253, R255: LEASH starts the running level's leash at the smaller of n and the level's cap in LEASH.LIMIT (LEASH_CLAMP sets
when n is above the cap), with the level's bit of LEASH.TRAP as it stands, and never lengthens a leash that runs; a count of 0 ends it,
as UNLEASH does. -/
def Sys2Proof.Claims.LeashResults : Prop :=
  ∀ (t : ThreadId) (g : Guard) (n : PCell) (s s1 : State),
    (Runs t g 1 0 [n] s s1 → Clean [n] →
      let r := (s1.thr t).leash
      let cap := (leashCap (s1.cor t.core) (curLevel s t)).toNat
      let count := if r.on then min r.count.toNat (min cap n.val.toNat) else min cap n.val.toNat
      exec (.leash t g) s = .next (retireNext t ((curReplace t false 1 [] s1).modThr t fun th =>
        { th with leash := { th.leash with
          lvl := curLevel s t
          trap := (s1.cor t.core).leashTrap.getLsbD (levelNum (curLevel s t))
          clamp := th.leash.clamp || decide (cap < n.val.toNat)
          on := decide (count ≠ 0)
          count := BitVec.ofNat 12 count } }))) ∧
    (Runs t g 0 0 [] s s1 → exec (.unleash t g) s = .next (retireNext t (s1.modThr t fun th =>
      { th with leash := { th.leash with on := false, count := 0 } })))

/-! ### Words: helpers -/

/-- The command of a helper operation's word. -/
def Sys2Proof.helperWord (k : HelperKind) (t : ThreadId) (g : Guard) : Instr :=
  match k with
  | .crc32 => .crc32 t g
  | .crc32c => .crc32c t g
  | .csum16 => .csum16 t g
  | .csumupd => .csumupd t g
  | .keyld => .keyld t g
  | .gcmenc => .gcmenc t g
  | .gcmdec => .gcmdec t g
  | .sha256 => .sha256 t g
  | .shachain => .shachain t g
  | .lkp => .lkp t g
  | .lkpx => .lkpx t g
  | .lkpt => .lkpt t g
  | .hash => .hashW t g
  | .seqrec => .seqrec t g
  | .seqrst => .seqrst t g

/-- An operation in flight may complete: its thread's core is in service, no halt freezes it, it does not wait for an instance of its
class, its operands are resident once `s1` stands, its class is still present, and neither a parity error of its reorder-buffer entry
nor a comparator meets it as it retires. -/
structure Sys2Proof.Completes (t : ThreadId) (k : HelperKind) (ops : List Cell) (s s1 : State) : Prop where
  wakes : mayWake s t = true
  mine : (s.thr t).pend = .helper k ops
  served : queuedFor s t k.cls = false
  filled : ensureCur t false k.pops s = some s1
  sound : (s1.thr t).robPar = false ∧ helperHits s1 t k ops = 0 ∧ helperPresent s1 k.cls = true

/-- R395, R397: a helper word of a class that is present, whose ranges pass their checks, meet no comparator and (where it reads
memory) follow no store still to be accepted, joins its class's queue: it is in flight with its operands, and nothing else changes;
where no other request stands at the helpers it has an instance at once, or needs none, so that its operation completes with the next
command that ends it. With a store to wait for it waits and changes nothing. SEQREC, on a stream with no update pending and no request waiting, is evaluated
at once (R413): the verdict and the new state stand pending. -/
def Sys2Proof.Claims.HelperLaunch : Prop :=
  ∀ (k : HelperKind) (t : ThreadId) (g : Guard) (cells : List PCell) (s s1 : State),
    Runs t g k.pops k.pushes cells s s1 → Clean cells → helperPresent (beginWord t s) k.cls = true →
    launchExc s1 t k (cells.map (·.val)) = none →
    (k.readsMem = true → storesOf s1 t ≠ [] → exec (helperWord k t g) s = .next s1) ∧
    (rangeHits s1 t (stackRanges k (cells.map (·.val))) = 0 → (k.readsMem = true → storesOf s1 t = []) →
    (k ≠ .seqrec →
      let u := joinClass t k.cls (s1.modThr t fun th => { th with pend := .helper k (cells.map (·.val)) })
      exec (helperWord k t g) s = .next u ∧ u = { s1 with threads := u.threads, help := { s1.help with reqs := u.help.reqs } } ∧
        (∀ v, v ≠ t → u.thr v = s1.thr v) ∧ (u.thr t).pend = .helper k (cells.map (·.val)) ∧
        (s1.help.reqs = [] → s1.help.detres = false → Completes t k (cells.map (·.val)) u u)) ∧
    (∀ st sn : PCell, k = .seqrec → cells = [st, sn] → s1.help.seqBusy (st.val.extractLsb' 0 12) = false →
      (∀ u : ThreadId, seqStream s1 u ≠ some (st.val.extractLsb' 0 12)) → (∀ p ∈ s1.help.seqPend, p.thread ≠ t) →
      s1.now < 2 ^ 47 * 65536000000000 → ∃ (hi lo : Cell) (u : State), timeValue hi lo = (s1.now : Int) ∧
        exec (.seqrec t g) s = .next u ∧
        (let s2 := joinClass t 3 (s1.modThr t fun th => { th with pend := .helper .seqrec [st.val, sn.val, hi, lo] })
         let v := seqEval (s1.help.stream (st.val.extractLsb' 0 12)) (sn.val.extractLsb' 0 16) s1.now
         u = { s2 with help := { s2.help with
                   seqPend := s2.help.seqPend ++
                     [{ thread := t, stream := st.val.extractLsb' 0 12, new := v.1, verdict := v.2 }] } }) ∧
        (s1.help.reqs = [] → s1.help.detres = false → Completes t .seqrec [st.val, sn.val, hi, lo] u u)))

/-- R61, R72: a word of a helper class that is absent raises illegal opcode, subcode ABSENT (2), with the word's address. -/
def Sys2Proof.Claims.HelperAbsent : Prop :=
  ∀ (k : HelperKind) (t : ThreadId) (g : Guard) (f : BitVec 6) (s : State), Issues t s →
    let absent := Host.Outcome.next (φ := Fault) (ρ := Refusal)
      (raiseExc t { cause := 1, sub := 2, addr := (s.thr t).arch.pc.setWidth 36 } (beginWord t s))
    (s.help.ready.getLsbD k.cls = false → exec (helperWord k t g) s = absent) ∧
    (s.help.chPresent = false → exec (.customerHelperOp t g f) s = absent)

/-- R61, R72, R401: a helper word in flight whose class is absent when it reaches retirement, here of an operation over its operands
alone, raises illegal opcode, subcode ABSENT (2), too: its operands stand on the stack again, and its request leaves the helpers. -/
def Sys2Proof.Claims.HelperAbsentAtEnd : Prop :=
  ∀ (k : HelperKind) (t : ThreadId) (ops : List Cell) (s s1 : State), k = .csumupd ∨ k = .hash ∨ k = .lkpt → mayWake s t = true →
    (s.thr t).pend = .helper k ops → queuedFor s t k.cls = false → ensureCur t false k.pops s = some s1 →
    (s1.thr t).robPar = false → helperHits s1 t k ops = 0 → mcWaits s1 t = false → helperPresent s1 k.cls = false →
    ∃ x, curTop x t false k.pops = curTop s1 t false k.pops ∧ x.mem = s1.mem ∧
      exec (.helperCompletion t) s = .next (leaveHelp t (seqStream s t)
        (raiseExc t { cause := 1, sub := 2, addr := (s.thr t).arch.pc.setWidth 36 } x))

/-- What an operation over memory reads: the bytes of its ranges, which fail no check. -/
def Sys2Proof.RangesRead (t : ThreadId) (rs : List HRange) (bss : List (List Byte)) (s s2 : State) : Prop :=
  readRanges t rs s = (.ok bss, s2)

/-- The CRC of R403 bit by bit: a reflected register takes one bit at a time. -/
def Sys2Proof.crcBits (poly r : BitVec 32) (bits : List Bool) : BitVec 32 :=
  bits.foldl (fun acc b => if (acc.getLsbD 0 != b) = true then (acc >>> 1) ^^^ poly else acc >>> 1) r

/-- R403: feeding bytes is feeding their bits, least significant bit first. -/
def Obligations.CrcBitSerial : Prop :=
  ∀ (poly r : BitVec 32) (bs : List Byte),
    crcFeed poly r bs = crcBits poly r (bs.flatMap fun b => (List.range 8).map fun i => b.getLsbD i)

/-- What an operation leaves that completes with cells, top first: its operands popped, the cells pushed, the word retired, and its
instance free for the next request of its class (R395). -/
def Sys2Proof.helped (t : ThreadId) (k : HelperKind) (v : List Cell) (s s' : State) : Host.Outcome State Fault Refusal :=
  .next (leaveHelp t (seqStream s t) (wordDone t k.pops (v.map PCell.of) s'))

/-- R403, R404, R409: what the checksum and digest operations leave when they complete, the operands popped and the result pushed.
CRC32 and CRC32C feed their range's bytes into the register; CSUM16 leaves the sum of R155; CSUMUPD is the update of RFC 1624 in
one's-complement arithmetic; SHA256 and SHACHAIN write the digest to dout with status 0. That the ranges are read and written in the
command that completes the operation is the model's choice (log entry 29). -/
def Obligations.ChecksumAndDigestResults : Prop :=
  ∀ (t : ThreadId) (a b c d : Cell) (bss : List (List Byte)) (s s1 s2 : State),
    let done := fun (k : HelperKind) (v : Cell) (s' : State) => helped t k [v] s s'
    let run := exec (.helperCompletion t) s
    let digest : HRange := { kind := .helperWrite, addr := c, len := 32 }
    (Completes t .crc32 [c, b, a] s s1 → RangesRead t (stackRanges .crc32 [c, b, a]) bss s1 s2 →
      run = done .crc32 ((crcFeed 0xEDB88320 (a.extractLsb' 0 32) bss.flatten).setWidth 48) s2) ∧
    (Completes t .crc32c [c, b, a] s s1 → RangesRead t (stackRanges .crc32c [c, b, a]) bss s1 s2 →
      run = done .crc32c ((crcFeed 0x82F63B78 (a.extractLsb' 0 32) bss.flatten).setWidth 48) s2) ∧
    (Completes t .csum16 [c, b, a] s s1 → RangesRead t (stackRanges .csum16 [c, b, a]) bss s1 s2 →
      run = done .csum16 (BitVec.ofNat 48 (ocSum (a.toNat % 65536) bss.flatten)) s2) ∧
    (Completes t .csumupd [c, b, a] s s1 →
      run = done .csumupd (BitVec.ofNat 48
        (65535 - ocAdd (ocAdd (65535 - a.toNat % 65536) (65535 - b.toNat % 65536)) (c.toNat % 65536))) s1) ∧
    (Completes t .sha256 [c, b, a] s s1 →
      RangesRead t [{ kind := .helperRead, addr := a, len := b.toNat % 2 ^ 14 }] bss s1 s2 →
      run = done .sha256 0 (rangeWrite t digest (sha256Of bss.flatten) s2)) ∧
    (Completes t .shachain [c, b, a, d] s s1 →
      RangesRead t [{ kind := .helperRead, addr := d, len := 32 }, { kind := .helperRead, addr := a, len := b.toNat % 2 ^ 14 }]
        bss s1 s2 →
      run = done .shachain 0 (rangeWrite t digest (sha256Of bss.flatten) s2))

/-- R402, R405, R406, R407: KEYLD with a bit above [6:0] of ks set is BADPARAM and loads nothing, and else fills its slot with the key
and its hash subkey; a crypto operation that a kennel wipe met completes with NOKEY; a GCM parameter block that breaks its form
is BADPARAM, an empty slot NOKEY, neither writing anything; GCMENC writes the ciphertext and the tag, GCMDEC the text and the verdict on
the tag. The order of these tests, and ranges read in the completing command, are the model's (log entries 32 and 29). -/
def Obligations.KeyAndCipherResults : Prop :=
  ∀ (t : ThreadId) (k : HelperKind) (a ks pb : Cell) (bss : List (List Byte)) (aad text : List Byte) (s s1 s2 s3 : State),
    let done := fun (k : HelperKind) (v : Cell) (s' : State) => helped t k [v] s s'
    let run := exec (.helperCompletion t) s
    let p := gcmParams bss.flatten
    let rs := gcmRanges (decide (k = .gcmenc)) p
    let key := smGet KeySlot.empty s2.help.keys p.slot
    (k.cls = 1 → Completes t k [] s s1 → run = done k 2 s1) ∧
    (Completes t .keyld [ks, a] s s1 →
      (2 ^ 7 ≤ ks.toNat → run = done .keyld 3 s1) ∧
      (ks.toNat < 2 ^ 7 →
        RangesRead t [{ kind := .helperRead, addr := a, len := if ks.getLsbD 6 then 32 else 16 }] bss s1 s2 →
        run = done .keyld 0 { s2 with help := { s2.help with
          keys := smPut KeySlot.empty s2.help.keys (ks.toNat % 64)
            { key := bss.flatten, subkey := gcmSubkey bss.flatten } } })) ∧
    (k = .gcmenc ∨ k = .gcmdec → Completes t k [pb] s s1 →
      RangesRead t [{ kind := .helperRead, addr := pb, len := 42 }] bss s1 s2 →
      (p.bad = true → run = done k 3 s2) ∧
      (p.bad = false → rs.findSome? (rangeExc s2 t) = none → rangeHits s2 t rs = 0 →
        (key.key = [] → run = done k 2 s2) ∧
        (key.key ≠ [] → k = .gcmenc → RangesRead t (readOnes rs) [aad, text] s2 s3 →
          let out := xorBytes text (gcmStream key.key p.iv text.length)
          run = done k 0 (rangeWrite t { kind := .helperWrite, addr := p.tag, len := 16 }
            (gcmTag key.key key.subkey p.iv aad out)
            (rangeWrite t { kind := .helperWrite, addr := p.dst, len := p.textLen } out s3))) ∧
        (∀ tag : List Byte, key.key ≠ [] → k = .gcmdec →
          RangesRead t (readOnes rs) [aad, text, tag] s2 s3 →
          run = done k (if gcmTag key.key key.subkey p.iv aad text = tag then 0 else 1)
            (rangeWrite t { kind := .helperWrite, addr := p.dst, len := p.textLen }
              (xorBytes text (gcmStream key.key p.iv text.length)) s3))))

/-- The exact table of R411 at a base: the bucket that a key's hash names, of 4 ways of 3 cells, and whether a way holds the key. -/
def Sys2Proof.bucketAt (base : Nat) (hi lo : Cell) : Nat :=
  base + 72 * ((~~~crcFeed 0x82F63B78 0xFFFFFFFF (cellBytes hi ++ cellBytes lo)).extractLsb' 0 14).toNat

def Sys2Proof.bucketCell (bs : List Byte) (i : Nat) : Cell := BitVec.ofNat 48 (bytesNat ((bs.drop (6 * i)).take 6))

def Sys2Proof.wayHolds (bs : List Byte) (hi lo : Cell) (w : Nat) : Prop :=
  (bucketCell bs (3 * w + 2)).getLsbD 47 = true ∧ bucketCell bs (3 * w) = hi ∧ bucketCell bs (3 * w + 1) = lo

/-- R411: the exact search with EN at 1 and a cell-aligned table inside the general part of shared SRAM reads the key's bucket: the
lowest valid way that holds the key answers VALID, the way's number and its data; with none, or with EN at 0 or a table elsewhere,
it misses. -/
def Sys2Proof.Claims.ExactTable : Prop :=
  ∀ (hi lo : Cell) (bs : List Byte) (s s1 : State),
    let b := s.help.lkpBase.toNat
    let placed := s.help.lkpEn = true ∧ b % 6 = 0 ∧ 0x10000000 ≤ b ∧ b + 1179648 ≤ 0x10500000
    (¬placed → exactSearch s hi lo = (.ok none, s)) ∧
    (placed → busRead s .normal (span (bucketAt b hi lo) 72) = (.ok bs, s1) →
      (∀ w < 4, wayHolds bs hi lo w → (∀ v < w, ¬wayHolds bs hi lo v) →
        exactSearch s hi lo =
          (.ok (some (1#1 ++ 0#1 ++ 0#4 ++ BitVec.ofNat 10 w ++ (bucketCell bs (3 * w + 2)).extractLsb' 0 32)), s1)) ∧
      ((∀ w < 4, ¬wayHolds bs hi lo w) → exactSearch s hi lo = (.ok none, s1)))

/-- R410 to R415: HASH is the inverted CRC-32C of the key's twelve bytes; LKPT pushes the lowest valid match of the ternary table,
and 0 where none matches; LKPX pushes the exact table's answer, LKP that or, on a miss, LKPT's. SEQREC commits the update it held
pending and pushes its verdict; SEQRST sets TAKEANY of its stream. That buckets are read in the
command that completes the operation is the model's choice (log entry 29). -/
def Sys2Proof.Claims.LookupResults : Prop :=
  ∀ (t : ThreadId) (hi lo st sn x y : Cell) (i : Nat) (e : Tern) (p : SeqPend) (s s1 s2 : State),
    let done := fun (k : HelperKind) (v : List Cell) (s' : State) => helped t k v s s'
    let run := exec (.helperCompletion t) s
    let fits := fun (e : Tern) => e.valid = true ∧ hi &&& e.mskhi = e.keyhi &&& e.mskhi ∧ lo &&& e.msklo = e.keylo &&& e.msklo
    let hit := (1#1 ++ 1#1 ++ 0#4 ++ BitVec.ofNat 10 i ++ e.data : Cell)
    let stream := st.extractLsb' 0 12
    (Completes t .hash [hi, lo] s s1 →
      run = done .hash [(~~~crcFeed 0x82F63B78 0xFFFFFFFF (cellBytes hi ++ cellBytes lo)).setWidth 48] s1) ∧
    ((∀ z ∈ s1.help.tern, ¬fits z.2) →
      (Completes t .lkpt [hi, lo] s s1 → run = done .lkpt [0] s1) ∧
      (Completes t .lkp [hi, lo] s s1 → exactSearch s1 hi lo = (.ok none, s2) → s2.help = s1.help → run = done .lkp [0] s2)) ∧
    (s1.help.tern.Pairwise (fun u v => u.1 < v.1) → (i, e) ∈ s1.help.tern → fits e →
      (∀ z ∈ s1.help.tern, fits z.2 → i ≤ z.1) →
      (Completes t .lkpt [hi, lo] s s1 → run = done .lkpt [hit] s1) ∧
      (Completes t .lkp [hi, lo] s s1 → exactSearch s1 hi lo = (.ok none, s2) → s2.help = s1.help → run = done .lkp [hit] s2)) ∧
    (exactSearch s1 hi lo = (.ok (some x), s2) →
      (Completes t .lkp [hi, lo] s s1 → run = done .lkp [x] s2) ∧ (Completes t .lkpx [hi, lo] s s1 → run = done .lkpx [x] s2)) ∧
    (exactSearch s1 hi lo = (.ok none, s2) → Completes t .lkpx [hi, lo] s s1 → run = done .lkpx [0] s2) ∧
    (Completes t .seqrec [st, sn, x, y] s s1 → s1.help.seqPend.filter (fun q => decide (q.thread = t)) = [p] →
      s1.help.cfgWait = [] → (∀ u : ThreadId, u ≠ t → seqStream s1 u = none) →
      run = done .seqrec [p.verdict] { (s1.modThr t fun th => { th with pend := .none }) with
        help := { s1.help with
          streams := smPut Stream.boot s1.help.streams p.stream.toNat p.new
          seqPend := s1.help.seqPend.filter fun q => decide (q.thread ≠ t) } }) ∧
    (Completes t .seqrst [st] s s1 → s1.help.seqBusy stream = false → (∀ u : ThreadId, u ≠ t → seqStream s1 u ≠ some stream) →
      run = done .seqrst [] { s1 with help := { s1.help with
        streams := smPut Stream.boot s1.help.streams stream.toNat { s1.help.stream stream with takeany := true } } })

/-- R416, R417, R418: a customer word with its class present joins the port's queue and is in flight, CH_ID's bit 7 toggled. A port that
is free, with no other request waiting for it, offers it at once: opcode, CH_ID and operands, x₁ the top cell. A port that is not
leaves it waiting. -/
def Sys2Proof.Claims.CustomerRequest : Prop :=
  ∀ (t : ThreadId) (g : Guard) (f : BitVec 6) (cells : List PCell) (s s1 : State),
    let x := fun (i : Nat) => ((cells.map (·.val))[i]?).getD 0
    let q : CustReq :=
      { f := f, id := BitVec.ofBool (!(s1.thr t).chToggle) ++ BitVec.ofNat 7 t.val, a := x 0, b := x 1, c := x 2 }
    let launched := fun (u : State) (st : CustStage) => exec (.customerHelperOp t g f) s = .next u ∧
      u.thr t = { s1.thr t with chToggle := !(s1.thr t).chToggle, pend := .cust q st } ∧
      (∀ v : ThreadId, v ≠ t → u.thr v = s1.thr v) ∧ u.mem = s1.mem ∧ u.cores = s1.cores ∧ u.tic = s1.tic ∧
      u.help = { s1.help with reqs := (s1.help.reqs.filter fun r => decide (r.thread ≠ t)) ++ [{ thread := t, cls := 4, inst := none }] }
    Runs t g (f.toNat / 16) (1 + f.toNat / 8 % 2) cells s s1 → Clean cells → s.help.chPresent = true →
    (s1.ports.chReq = none → (∀ r ∈ s1.help.reqs, r.thread ≠ t → custWaiting s1 r.thread = none) →
      ∃ u, launched u .offered ∧ u.ports = { s1.ports with chReq := some q }) ∧
    (s1.ports.chReq ≠ none → ∃ u, launched u .waiting ∧ u.ports = s1.ports)

/-- R417, R418: a response that answers a thread's outstanding request completes its word with y₀, or y₀ and y₁ with y₁ on top, and
reports CH_DONE with CH_KEEP at 1; a request still at the port has then been accepted. One that answers none is ignored. No
response by the end of HELP.CTL.CHTO's count completes the word with all ones and sets HELP.STATUS.CHTO. A rising CH_EVENT sets PEND of
source 39. That an answer implies the acceptance is the model's reading (log entry 34). -/
def Sys2Proof.Claims.CustomerAnswer : Prop :=
  ∀ (t : ThreadId) (q : CustReq) (st : CustStage) (id : BitVec 8) (y0 y1 : Cell) (s s1 : State),
    let out := fun (a b : Cell) => if q.f.getLsbD 3 then [PCell.of b, PCell.of a] else [PCell.of a]
    let told := fun (u : State) => { u with ports := { u.ports with chDone := u.ports.chDone ++ [(q.id, true)] } }
    let ends := fun (a b : Cell) (x : State) => Host.Outcome.next (φ := Fault) (ρ := Refusal)
      (told (leaveHelp t none (wordDone t (q.f.toNat / 16) (out a b) x)))
    ((s.thr t).pend = .cust q st → mayWake s t = true → (s.thr t).robPar = false → pcHits s t = 0 →
      (st ≠ .waiting → q.id.toNat % 128 = t.val →
        let s' := if st = .offered then custAccept s else s
        ensureCur t false (q.f.toNat / 16) s' = some s1 → exec (.chResponse q.id y0 y1) s = ends y0 y1 s1) ∧
      (st = .accepted 0 → ensureCur t false (q.f.toNat / 16) { s with help := { s.help with chtoFlag := true } } = some s1 →
        exec (.chTimeout t) s = ends (BitVec.allOnes 48) (BitVec.allOnes 48) s1) ∧
      (∀ n, st = .accepted (n + 1) → exec (.chTimeout t) s = .next s)) ∧
    ((∀ (u : ThreadId) (h : CustReq) (z : CustStage), (s.thr u).pend = .cust h z → h.id ≠ id) →
      exec (.chResponse id y0 y1) s = .next s) ∧
    exec .chEvent s = .next (raiseSrc 39 s)

/-! ### Beside the words: drains, caches, the spill engine, modes -/

/-- Nothing waits for a store, a tag or the fabric: no block instruction and no boot ROM's copy is in flight, no answer is held, and no
debugger steps a word or has injected one that waits. -/
structure Sys2Proof.Quiet (s : State) : Prop where
  noBlock : ∀ (u : ThreadId) (b : BlockState), (s.thr u).pend ≠ .block b
  noCopy : ∀ (u : ThreadId) (r : RomStage), (s.thr u).pend ≠ .rom r
  noAnswer : s.held = []
  noStep : s.dbg.stepping = false
  noWord : s.dbg.injWait = none

/-- The thread's oldest buffered store, still to drain, in a tile that runs. -/
structure Sys2Proof.Drains (t : ThreadId) (e : SbEntry) (s : State) : Prop where
  oldest : ∃ rest, storesOf s t = e :: rest
  waits : e.phase = .waiting
  sound : e.par = 0
  runs : s.boot = .run

/-- R124, R307, R317, R330: a drain to storage of the tile leaves the store buffer without its entry and writes the entry's bytes with
fresh codes at its address, where a borrowed window redirects them too; no other stored byte changes. The core's own lines follow the
store. All else stays as it is, but for reservations. The target is not the scratchpad of a fenced or power-gated core. -/
def Sys2Proof.Claims.StoreDrainMemory : Prop :=
  ∀ (t : ThreadId) (meet : Bool) (e : SbEntry) (r : Region) (s : State), Drains t e s → Quiet s →
    spanRegion (some t) e.ea.toNat e.bytes.length = some r → r ∉ [Region.host, .keep, .reg, .frame] →
    (spadOf t.core r).any (spadGone s) = false →
    let base := physOf t e.ea.toNat
    let lines := (lineUpdate t.core base e.bytes s).cor t.core
    ∃ u, exec (.storeDrain t meet) s = .next u ∧
      (∀ j, (h : j < e.bytes.length) → rawByte u (viaOf s t e.lvl r) (base + j) = encByte e.bytes[j]) ∧
      (∀ via a, a < base ∨ base + e.bytes.length ≤ a → rawByte u via a = rawByte s via a) ∧
      u.cor t.core = { lines with
        sb := (s.cor t.core).sb.erase e
        borrow := { lines.borrow with buf := (u.cor t.core).borrow.buf } } ∧
      (∀ c, c ≠ t.core → u.cor c = { s.cor c with borrow := { (s.cor c).borrow with buf := (u.cor c).borrow.buf } }) ∧
      (∀ v : ThreadId, u.thr v = { s.thr v with resv := (u.thr v).resv }) ∧
      (∀ v : ThreadId, (u.thr v).resv = (s.thr v).resv ∨ (u.thr v).resv = none) ∧
      u = { s with threads := u.threads, cores := u.cores, mem := u.mem }

/-- A reset that has begun, its OWNER_RESET not yet acknowledged, covers a register, which its kind does not keep whole (R484, R485, R503):
one of the tile, or in a tile that has booted one of a core or a thread. -/
def Sys2Proof.ResetUnderWay (x : RegRef) (s : State) : Prop :=
  (∃ kind, (s.boot = .held kind ∨ s.boot = .ackWait kind) ∧ resetKeeps kind x = false) ∨
    (s.boot = .run ∧
      ((∃ c k, x = .core c k ∧ (s.cor c).inReset.isSome = true ∧ resetKeeps 3 x = false) ∨
        ∃ v k, x = .thread v k ∧ ((s.cor v.core).inReset.isSome = true ∨
          (OwnScope.thread v ∈ s.ownq ++ s.ownWait.toList ∧ resetKeeps 4 x = false))))

/-- R43, R116, R124, R497: a drain to a register does what a write of that register does, with the rights the store had; one to THR.ARITH
that drains in the cycle in which its thread's next word retires is noted, for the flags that the word writes (THR.PRED stands in the
next part). In the first cycle of a reset, of the thread, the core or the tile, that covers the register it is discarded (R504). The clauses on the word's cycle are
the model's choice (log entry 11): a flag of the command says that the drain meets it; so does one for the reset's first cycle (log entry
103). -/
def Sys2Proof.Claims.StoreDrainReg : Prop :=
  ∀ (t : ThreadId) (meet : Bool) (e : SbEntry) (x : RegRef) (s : State), Drains t e s →
    spanRegion (some t) e.ea.toNat e.bytes.length = some .reg → regAt (some t) e.ea.toNat = some x →
    let u := regStore (.thread t) e.lvl x (bytesCell e.bytes) (s.modCor t.core fun k => { k with sb := k.sb.erase e })
    (Quiet u →
      (meet = false ∨ (∀ v, x ≠ .thread v 2 ∧ x ≠ .thread v 3) → exec (.storeDrain t meet) s = .next u) ∧
      (∀ v, x = .thread v 2 → exec (.storeDrain t true) s = .next (u.modThr v fun th => { th with arithMet := true })) ∧
      (∀ k, x = .tile k → exec (.storeDrain t meet true) s = .next u)) ∧
    (Quiet s → ResetUnderWay x s →
      exec (.storeDrain t meet true) s = .next (s.modCor t.core fun k => { k with sb := k.sb.erase e }))

/-- R57, R201, R211, R226: a store to THR.PRED that drains in a cycle in which n of the thread's next words have been at I: their guards
have the predicates as they stood before it, and so has a PINV among them, each word that retires leaves one less, and guards read later,
or after a FENCE, have what the store wrote. One in the cycle in which the next word retires is noted, for the predicate that it writes.
That operands of the command tell the cycle and the words (log entries 11 and 140), that a deterministic core's own store finds none (R118)
and that PINV reads as a guard does (log entry 140) is the model's choice and reading. -/
def Sys2Proof.Claims.StoreDrainPred : Prop :=
  ∀ (t v : ThreadId) (meet : Bool) (issued : Nat) (e : SbEntry) (s : State), Drains t e s →
    spanRegion (some t) e.ea.toNat e.bytes.length = some .reg → regAt (some t) e.ea.toNat = some (.thread v 3) →
    let u := regStore (.thread t) e.lvl (.thread v 3) (bytesCell e.bytes) (s.modCor t.core fun k => { k with sb := k.sb.erase e })
    let n := if t = v ∧ (s.cor v.core).act = true then 0 else min 8 (if meet then max 1 issued else issued)
    let more := n - ((u.thr v).oldPreds.map (·.left)).sum
    let a := (s.thr v).arch
    (Quiet u → meet = true ∨ issued ≠ 0 → exec (.storeDrain t meet false issued) s = .next (u.modThr v fun th => { th with
      predMet := th.predMet || meet
      oldPreds := if more = 0 then th.oldPreds else th.oldPreds ++ [{ left := more, p1 := a.p1, p2 := a.p2, p3 := a.p3 }] })) ∧
    ∀ (w w1 : State) (g : Guard) (k : BitVec 2) (o : OldPred) (rest : List OldPred),
      let reads := fun (p1 p2 p3 : Bool) (k : BitVec 2) => k = 0 ∨ (k = 1 ∧ p1 = true) ∨ (k = 2 ∧ p2 = true) ∨ (k = 3 ∧ p3 = true)
      ((w.thr v).inj = none → (w.thr v).oldPreds = o :: rest →
        (guardHolds v g w ↔ reads o.p1 o.p2 o.p3 g) ∧
        (w.dbg.stepping = false → ((plainDone v w).thr v).oldPreds =
          if o.left ≤ 1 then rest else { o with left := o.left - 1 } :: rest) ∧
        (k ≠ 0 → Runs v g 0 0 [] w w1 →
          exec (.pinv v g k) w = .next (retireNext v (withPred v k (!decide (reads o.p1 o.p2 o.p3 k)) w1)))) ∧
      ((w.thr v).oldPreds = [] → (guardHolds v g w ↔ reads (w.thr v).arch.p1 (w.thr v).arch.p2 (w.thr v).arch.p3 g)) ∧
      (Runs v g 0 0 [] w w1 → storesOf w1 v = [] → ∃ u, exec (.fence v g) w = .next u ∧ (u.thr v).oldPreds = [])

/-- R15, R16, R114: a drain to the frame window becomes edits of the visit of the thread's current item, byte by byte at the store's
offset; the other edits of the item, every other item and all of memory stay, the stash with them. A store whose visit has been broken
off meanwhile, by a KILL or a reset, only leaves the buffer. -/
def Sys2Proof.Claims.StoreDrainFrame : Prop :=
  ∀ (t : ThreadId) (meet : Bool) (e : SbEntry) (it : Item) (s : State), Drains t e s → Quiet s →
    spanRegion (some t) e.ea.toNat e.bytes.length = some .frame → currentItem s t = some it →
    let off := e.ea.toNat - 0x30000000
    let gone := s.modCor t.core fun k => { k with sb := k.sb.erase e }
    (e.stray = true → exec (.storeDrain t meet) s = .next gone) ∧
    (e.stray = false → ∃ edits : Item → SMap Byte, exec (.storeDrain t meet) s = .next { gone with fetch := { s.fetch with
        items := s.fetch.items.map fun x => if x.id = it.id then { x with edits := edits x } else x } } ∧
      ∀ x, (∀ j, (h : j < e.bytes.length) → editAt (edits x) (off + j) = some e.bytes[j]) ∧
        ∀ o, o < off ∨ off + e.bytes.length ≤ o → editAt (edits x) o = editAt x.edits o)

/-- R125, R320, R321, R322, R126: a drain to host memory is offered to the fabric under a free tag with the thread's owner ID, and waits
while none is free; one to the keep store starts its cell writes, waits while another runs, and in SCRAP is refused, as is
one to the scratchpad of a fenced or power-gated core: the entry leaves, and THR.SFAR records cause REFUSED and the address. The
store fault is then taken with cause 0x04 and that cause as its subcode. -/
def Sys2Proof.Claims.StoreDrainElsewhere : Prop :=
  ∀ (t : ThreadId) (meet : Bool) (e : SbEntry) (tag : BitVec 8) (r : Region) (cause : BitVec 2) (ea : BitVec 36) (rest : List (BitVec 2 × BitVec 36))
    (s : State), Quiet s →
    let gone := fun (s' : State) => s'.modCor t.core fun k => { k with sb := k.sb.erase e }
    let phased := fun (p : SbPhase) (s' : State) => s'.modCor t.core fun k =>
      { k with sb := k.sb.replace e { e with phase := p } }
    let late := fun (s' : State) => s'.modThr t fun th => { th with
      sfar := if th.sfar.valid then { th.sfar with more := true } else { th.sfar with valid := true, cause := 2, addr := e.ea }
      sfPend := th.sfPend ++ [(2, e.ea)] }
    let q : FabReq :=
      { tag := tag
        we := true
        addr := BitVec.ofNat 28 (e.ea.toNat - 0x20000000)
        len := e.bytes.length
        wdata := e.bytes
        owner := s.node ++ BitVec.ofNat 7 t.val
        peek := false
        use := .store t }
    (Drains t e s → spanRegion (some t) e.ea.toNat e.bytes.length = some r →
      (r = .host → ownerHeld s t = false →
        (freeTag s.fab = some tag → exec (.storeDrain t meet) s = .next (phased (.sent tag)
          { s with fab := { s.fab with out := s.fab.out ++ [q] } })) ∧
        (freeTag s.fab = none → exec (.storeDrain t meet) s = .next s)) ∧
      (r = .keep →
        (s.lc.stateOut = 4 → exec (.storeDrain t meet) s =
          .next (late (raiseSrc 35 { gone s with ks := { s.ks with refused := true } }))) ∧
        (s.lc.stateOut ≠ 4 → s.ks.todo = [] → exec (.storeDrain t meet) s =
          .next (keepStart (.thread t) e.ea.toNat e.bytes (phased .keep s))) ∧
        (s.lc.stateOut ≠ 4 → s.ks.todo ≠ [] → exec (.storeDrain t meet) s = .next s)) ∧
      (∀ c, spadOf t.core r = some c → spadGone s c = true → exec (.storeDrain t meet) s = .next (late (gone s)))) ∧
    ((s.thr t).sfPend = (cause, ea) :: rest → atBoundary s t = true → interruptWaits s t = false → (s.thr t).pend = .none →
      (s.thr t).inj = none → (s.thr t).robPar = false →
      exec (.storeFault t) s = .next (takeException t { cause := 4, sub := cause.setWidth 4, addr := ea }
        ((beginWord t s).modThr t fun th => { th with sfPend := rest })))

/-- R129, R193, R216, R305, R307, R329: a line fill of the shared SRAM in progress installs its 48 bytes, each with a fresh code or failing
as its source does, unless the core is in deterministic mode; an I-cache miss in the shared store fills its line with the 8 words of
that store, each with fresh parity or marked uncorrectable; the branch target buffer of a core empties. Nothing else of the tile
changes but what reading a correctable word counts. That a byte which cannot be corrected stands failing in its line is the model's
reading (log entry 26). -/
def Sys2Proof.Claims.CacheFills : Prop :=
  ∀ (c : CoreId) (line : Nat) (a : WAddr) (s : State),
    ((line, none) ∈ (s.cor c).dfills → lineOk line = true → exec (.dcacheFill c line) s = .next (s.modCor c fun k =>
      { k with
        dlines := if k.act then k.dlines
          else insDline k.dlines { addr := line, bytes := (span line 48).map fun x => lineByte (rawByte s .normal x) }
        dfills := k.dfills.erase (line, none) })) ∧
    (unitsRun s c = true → 0x10000 ≤ a.toNat → a.toNat < 0x90000 → iline (s.cor c) a.toNat = none →
      let base := a.toNat - a.toNat % 8
      ∃ u l, exec (.icacheFill c a) s = .next u ∧ iline (u.cor c) a.toNat = some l ∧ l.addr = base ∧
        l.words = ((span base 8).map fun x => (encLocal (readShared s x).1.1, (readShared s x).1.2)) ∧
        u.cor c = { s.cor c with ilines := (u.cor c).ilines } ∧ (∀ d, d ≠ c → u.cor d = s.cor d) ∧
        u = { s with cores := u.cores, sprog := u.sprog, tic := u.tic, ecc := u.ecc } ∧
        (s.ecc.legacy = false → u.sprog = s.sprog)) ∧
    exec (.btbInvalidate c) s = .next (s.modCor c fun k => { k with btb := [], btbMark := [] })

/-- R203, R205, R208: the engine's spill of a level's deepest cell writes its six bytes at the spill pointer, a failing or poisoned one
as the poison pattern, adds 6 to the pointer and takes the cell out of the window; its fill subtracts 6, reads there, and puts the cell
under the resident ones, with a byte that does not read well poisoned. A spill of the running level waits while a cell of another
level of the core has to go, and a fill while any spill waits. Nothing else changes. That the engine serves its core's threads in this
order, whatever their numbers, is the model's reading (log entry 65). -/
def Sys2Proof.Claims.SpillEngine : Prop :=
  ∀ (t : ThreadId) (l : Level) (rs : Bool) (c : PCell) (s : State), unitsRun s t.core = true →
    let k := s.stk t l rs
    (k.res.getLast? = some c →
      (l ≠ curLevel s t ∨ (otherLevelWaits s t.core = false ∧ (if rs then 20 else 12) < residents s t rs)) →
      ∃ u, exec (.spillEngineSpill t l rs) s = .next u ∧
        u.stk t l rs = { k with sp := k.sp + 6, res := k.res.dropLast } ∧
        (∀ l' rs', (l', rs') ≠ (l, rs) → u.stk t l' rs' = s.stk t l' rs') ∧
        (∀ j < 6, k.sp.toNat + j < 0x18000 → rawByte u .normal (spadBase t.core.val + k.sp.toNat + j) = spillByte c j) ∧
        SpillsOnly t s u ∧ (∀ v, v ≠ t → { u.thr v with resv := none } = { s.thr v with resv := none }) ∧
        u.cor t.core = { s.cor t.core with borrow := { (s.cor t.core).borrow with buf := (u.cor t.core).borrow.buf } } ∧
        (∀ d, d ≠ t.core → u.cor d = s.cor d) ∧
        u = { s with threads := u.threads, cores := u.cores, mem := u.mem }) ∧
    (k.res ≠ [] → l = curLevel s t → otherLevelWaits s t.core = true → exec (.spillEngineSpill t l rs) s = .next s) ∧
    (l = curLevel s t → k.res.length < 4 → (k.res.length : Int) < k.depth → residents s t rs < (if rs then 24 else 16) →
      storeTouches s t (spadBase t.core.val + (k.sp.toNat - 6)) 6 = false →
      (otherLevelWaits s t.core = false → markWaits s t.core = false →
        ∃ u x, exec (.spillEngineFill t rs) s = .next u ∧ u.stk t l rs = { k with sp := k.sp - 6, res := k.res ++ [x] } ∧ x.par = 0 ∧
          (∀ j < 6, (lane x.val j, laneBit x.poison j) = (fillByte s t ((k.sp - 6).toNat + j)).1) ∧
          FillsOnly t l rs 1 s u ∧ (∀ v, v ≠ t → u.thr v = s.thr v) ∧
          u = { s with threads := u.threads, cores := u.cores, mem := u.mem, tic := u.tic, ecc := u.ecc }) ∧
      (otherLevelWaits s t.core = true ∨ markWaits s t.core = true → exec (.spillEngineFill t rs) s = .next s))

/-- R225, R221, R315, R429: a write of DET that changes it starts a switch, during which no thread of the core may issue; one that keeps it
starts none, and neither wakes a core that rests (R500). The switch completes once the core has quiesced, where it leads to
deterministic mode with no borrow active and the core at Run: ACT takes the value of DET, the next cycle is c₀, and the core may
issue again; a borrow holds it off, and so does a rest level. -/
def Sys2Proof.Claims.ModeSwitch : Prop :=
  ∀ (c : CoreId) (det : Bool) (s : State),
    let k := s.cor c
    (det = k.det → exec (.modeSwitchRequest c det) s = .next s) ∧
    (det ≠ k.det → ∃ u, exec (.modeSwitchRequest c det) s = .next u ∧
      u.cor c = { k with det := det, switching := true } ∧
      (∀ d, d ≠ c → u.cor d = s.cor d) ∧ u.threads = s.threads ∧ (∀ t : ThreadId, t.core = c → canIssue u t = false)) ∧
    (k.switching = true → quiesced s c = true →
      (k.det = false ∨ (k.borrow.active = false ∧ k.rest = .run ∧ k.waking = false) → exec (.modeSwitchComplete c) s =
        .next (s.modCor c fun x => { x with act := x.det, switching := false, c0 := s.fetch.cycle })) ∧
      (k.det = true → k.borrow.active = true ∨ k.rest ≠ .run → exec (.modeSwitchComplete c) s = .next s))

/-! ### Loads from elsewhere, the ends of waits, and answers from outside -/

/-- R129, R219, R305, R306, R307, R320: a load of host memory offers the fabric a request under a free tag, for the whole line where the D-cache may
hold it and for its own bytes otherwise, and stays in flight. A load that a D-cache line answers takes its bytes from the line; on a
miss of storage of the tile it reads its bytes there and the line's fill starts; on a miss of host memory the fill starts with the tag.
A line with a byte that fails its code does not answer, and goes. A load of a register delivers its value; one that the
thread's own buffered stores cover takes their bytes. That a miss reads, and counts, the whole line is the model's reading (log entry 26). -/
def Sys2Proof.Claims.LoadElsewhere : Prop :=
  ∀ (t : ThreadId) (g : Guard) (form : AddrForm) (cells : List PCell) (bs : List Byte) (s s1 : State), Clean cells →
    ∀ x ∈ loadWords t g form,
      let w := x.2.1
      let ea := effAddr form w cells
      let left := formLeaves form w cells
      let done := fun (bs : List Byte) (s' : State) => Host.Outcome.next (φ := Fault) (ρ := Refusal)
        (wordDone t (formCells form) ((left ++ loadedCells w x.2.2 bs).map PCell.of) s')
      let load : Pend :=
        .load { width := w, signed := x.2.2, lr := false, form := form } (BitVec.ofNat 36 ea.toNat) (left.headD 0)
      Runs t g (formCells form) ((if w = 12 then 2 else 1) + (if formUpdates form then 1 else 0)) cells s s1 →
      dataHits s1 t false ea.toNat w = 0 →
      (∀ tag : BitVec 8, checkAccess s1 t (accLevel s1 t) .load ea w 0 = .ok .host → storesOf s1 t = [] → ownerHeld s1 t = false →
        freeTag s1.fab = some tag → usesDcache s1 t .host ea.toNat w = false →
        ∃ q u, exec x.1 s = .next u ∧ q.tag = tag ∧ q.we = false ∧ q.addr = BitVec.ofNat 28 (ea.toNat - 0x20000000) ∧ q.len = w ∧
          q.owner = s1.node ++ BitVec.ofNat 7 t.val ∧ q.use = .load t ∧ q.taken = false ∧
          u = { (s1.modThr t fun th => { th with pend := load }) with fab := { s1.fab with out := s1.fab.out ++ [q] } }) ∧
      (∀ (r : Region) (l : DLine), checkAccess s1 t (accLevel s1 t) .load ea w 0 = .ok r →
        forwardFor s1 t false r ea.toNat w = .read → usesDcache s1 t r ea.toNat w = true →
        findDline (s1.cor t.core) (ea.toNat - ea.toNat % 48) = some l → lineBytes l ea.toNat w = some bs → bs.length = w →
        exec x.1 s = done bs (s1.modCor t.core fun k => { k with dlines := insDline k.dlines l })) ∧
      (∀ r : Region, checkAccess s1 t (accLevel s1 t) .load ea w 0 = .ok r →
        forwardFor s1 t false r ea.toNat w = .read → usesDcache s1 t r ea.toNat w = true →
        let line := ea.toNat - ea.toNat % 48
        let found := findDline (s1.cor t.core) line
        let s2 := if found.isSome then s1.modCor t.core fun k => { k with
            dlines := k.dlines.filter fun l => decide (l.addr ≠ line)
            dfills := k.dfills.filter fun l => decide (l.1 ≠ line) } else s1
        (∀ l, found = some l → lineBytes l ea.toNat w = none) →
        (r ≠ .host → peekSpan s2 .normal ea.toNat w = .ok bs → exec x.1 s =
          done bs (noteFill t.core line none (busRead s2 .normal (span line 48)).2)) ∧
        (∀ tag : BitVec 8, r = .host → ownerHeld s1 t = false → freeTag s1.fab = some tag → ∃ q u, exec x.1 s = .next u ∧
          q.tag = tag ∧ q.we = false ∧ q.addr = BitVec.ofNat 28 (line - 0x20000000) ∧ q.len = 48 ∧
          q.owner = s1.node ++ BitVec.ofNat 7 t.val ∧ q.use = .load t ∧ q.taken = false ∧
          u = (noteFill t.core line (some tag) { s2 with fab := { s1.fab with out := s1.fab.out ++ [q] } }).modThr t fun th => { th with pend := load })) ∧
      (∀ r : RegRef, x.1 = .ld6 t g form → checkAccess s1 t (accLevel s1 t) .load ea 6 0 = .ok .reg → storesOf s1 t = [] →
        regAt (some t) ea.toNat = some r →
        exec x.1 s = .next (wordDone t (formCells form) ((left ++ [(regLoad s1 r).1]).map PCell.of) (regLoad s1 r).2)) ∧
      (∀ r : Region, checkAccess s1 t (accLevel s1 t) .load ea w 0 = .ok r →
        forwardFor s1 t false r ea.toNat w = .forward bs false → bs.length = w → exec x.1 s = done bs s1)

/-- A parked word of thread t may go on with its n operands resident, as `s1` has them, with no parity error of its entry and no
comparator in its way. -/
structure Sys2Proof.Resumes (t : ThreadId) (n : Nat) (s s1 : State) : Prop where
  may : mayWake s t = true
  sound : (s.thr t).robPar = false
  unwatched : pcHits s t = 0
  filled : ensureCur t false n s = some s1

/-- R170 to R173, R176, R181: a parked WAITT, WFE or GETWORK ends when the core's copy reaches its limit, its operands popped; WFE by its event
first, which clears, with the flag true; a limit with bit 47 of its high cell set never comes, and before its limit a wait goes on. -/
def Sys2Proof.Claims.WaitEnds : Prop :=
  ∀ (t : ThreadId) (d : Dbl) (s s1 : State), Resumes t 2 s s1 →
    let now := d.hi.getLsbD 47 = false ∧ timeValue d.hi d.lo ≤ (s.copyNow t.core : Int)
    let run := exec (.waitLimit t) s
    ((s.thr t).pend = .waitt d → (now → run = .next (wordDone t 2 [] s1)) ∧ (¬now → run = .next s)) ∧
    ((s.thr t).pend = .wfe d →
      ((s.thr t).ev = true →
        run = .next (retireNext t ((curReplace t false 2 [PCell.of (BitVec.allOnes 48)] s1).modThr t fun th =>
          { th with ev := false }))) ∧
      ((s.thr t).ev = false → now → run = .next (wordDone t 2 [PCell.of 0] s1)) ∧
      ((s.thr t).ev = false → ¬now → run = .next s)) ∧
    ((s.thr t).pend = .getwork d → (s.thr t).slot = none →
      (now → run = .next (retireNext t ((curReplace t false 2 [] s1).modThr t fun th =>
        { th with dl := { hi := 0x7FFFFFFFFFFF, lo := 0x3B9AC9FFFFFF } }))) ∧
      (¬now → run = .next s))

/-- R140, R141, R307: the semaphore unit's answer ends a CAS6 with old under the status; OK and ABANDONED also update the line of the core
that holds the cell; ERROR raises bus error FABRIC at its address; and once THR.SEMCTL.TIMEOUT has run out, with no answer held, the
request is withdrawn with status 2 over 0. Here neither a parity error of the word's reorder-buffer entry nor a comparator meets the
word as it retires, and no machine check waits for its thread where it fails (R215, R467, R279). -/
def Sys2Proof.Claims.SemaphoreAnswers : Prop :=
  ∀ (t : ThreadId) (ea : BitVec 36) (stage : Cas6Stage) (old : Cell) (st : BitVec 3) (s s1 : State),
    mayWake s t = true → (s.thr t).pend = .cas6 ea stage → (s.thr t).robPar = false → cas6Hits s t ea = 0 →
    let others := s.ports.semReq.filter fun r => decide (r.thread ≠ t)
    let s' := { s.modThr t fun th => { th with pend := .none } with ports := { s.ports with semReq := others } }
    (ensureCur t false 3 s' = some s1 →
      (st = 1 → exec (.semResponse t old st) s = .next (wordDone t 3 [PCell.of 1, PCell.of old] s1)) ∧
      (∀ a new exp, st = 0 ∨ st = 3 → curTop s1 t false 3 = [a, new, exp] →
        exec (.semResponse t old st) s = .next (wordDone t 3 [PCell.of (st.setWidth 48), PCell.of old]
          (lineUpdate t.core a.val.toNat (cellBytes new.val) s1))) ∧
      (st = 4 → exec (.semResponse t old st) s = .next (wordDone t 3 [PCell.of 4, PCell.of 0] s1)) ∧
      ((∃ stalled, stage = .taken (some 0) stalled) → semHeld s t = false → ∃ u, u = wordDone t 3 [PCell.of 2, PCell.of 0] s1 ∧
        exec (.cas6Timeout t) s = .next { u with ports := { u.ports with semWdr := u.ports.semWdr ++ [t] } })) ∧
    (st ∉ [0#3, 1#3, 3#3, 4#3] → mcWaits s' t = false →
      exec (.semResponse t old st) s = .next (raiseExc t { cause := 3, sub := 4, addr := ea } s'))

/-- R125, R126, R129, R140, R157, R212, R307, R454, R479: a fabric response ends its request. An accepted store leaves the store buffer and
updates the core's own lines; a refused one is a late fault with cause ERROR. A load completes with its bytes, a whole line
also filling the D-cache of a core in normal mode, or raises bus error FABRIC. A Whistle operation has its result. A response to a
discarded word only frees the tag. A timeout, once FAB.CTL.TIMEOUT cycles have passed since the request was taken and that count is not
0, does as an error does, with cause TIMEOUT for a store, and keeps the tag blocked until a response comes for it. That every status but
0 acts as ERROR, PEEKDENY for a request that is no peek included, and when a timed-out tag is free again are the model's reading (log
entry 21). -/
def Sys2Proof.Claims.FabricAnswers : Prop :=
  ∀ (t : ThreadId) (q : FabReq) (e : SbEntry) (o : WhiOp) (sh : LoadShape) (ea : BitVec 36) (next : Cell) (data : BitVec 384)
    (st : BitVec 2) (s : State), Quiet s → findReq s q.tag = some q →
    let bs := (List.range q.len).map fun j => (data.extractLsb' (376 - 8 * j) 8 : Byte)
    let s1 := { s with fab := { s.fab with out := s.fab.out.filter fun r => decide (r.tag ≠ q.tag) } }
    let s1b := { s1 with fab := { s1.fab with blocked := s1.fab.blocked ++ [q.tag] } }
    let gone := fun (x : State) => x.modCor t.core fun k => { k with sb := k.sb.erase e }
    let late := fun (cause : BitVec 2) (x : State) => x.modThr t fun th => { th with
      sfar := if th.sfar.valid then { th.sfar with more := true } else { th.sfar with valid := true, cause := cause, addr := e.ea }
      sfPend := th.sfPend ++ [(cause, e.ea)] }
    let respond := exec (.fabResponse q.tag data st) s
    let expire := exec (.fabricTimeout q.tag) s
    let due := s.fab.timeout ≠ 0 ∧ s.fab.timeout.toNat ≤ q.age
    (¬due → expire = .next s) ∧
    (q.use = .store t → sentEntry s t.core q.tag = some e →
      (st = 0 → respond = .next (lineUpdate t.core (0x20000000 + q.addr.toNat) e.bytes (gone s1))) ∧
      (st ≠ 0 → respond = .next (late 0 (gone s1))) ∧
      (due → expire = .next (late 1 (gone s1b)))) ∧
    (q.use = .load t → mayWake s t = true → (s.thr t).pend = .load sh ea next →
      let line := 0x20000000 + q.addr.toNat
      let filled := if q.len = 48 ∧ (line, some q.tag) ∈ (s.cor t.core).dfills then s1.modCor t.core fun k => { k with
          dlines := if k.act then k.dlines else insDline k.dlines { addr := line, bytes := bs.map encByte }
          dfills := k.dfills.erase (line, some q.tag) } else s1
      let dropped := fun (x : State) => if q.len = 48 then x.modCor t.core fun k => { k with
          dlines := k.dlines.filter fun l => decide (l.addr ≠ line)
          dfills := k.dfills.filter fun l => decide (l.1 ≠ line) } else x
      let fault := fun (x : State) => raiseExc t { cause := 3, sub := 4, addr := ea } (dropped x)
      (st = 0 → ∀ s2, ensureCur t false (formCells sh.form) filled = some s2 → sh.lr = false → (s.thr t).robPar = false →
        pcHits s t = 0 → dataHits s t false ea.toNat sh.width = 0 →
        respond = .next (wordDone t (formCells sh.form) (((if formUpdates sh.form then [next] else []) ++
          loadValue sh.width sh.signed ((bs.drop (ea.toNat - line)).take sh.width)).map PCell.of) s2)) ∧
      ((s.thr t).robPar = false → loadHits s t sh ea = 0 → mcWaits s t = false →
        (Quiet (fault s1) → st ≠ 0 → respond = .next (fault s1)) ∧
        (Quiet (fault s1b) → due → expire = .next (fault s1b)))) ∧
    (q.use = .whistle → s.whi.op = some o →
      let result := fun (code : BitVec 4) (v : Cell) (x : State) => { x with whi := { x.whi with
        op := some { o with result := some { status := code, data := v, cmd := o.cmd } } } }
      (st = 0 → respond = .next (result 0 (if q.we then 0 else BitVec.ofNat 48 (bytesNat bs)) s1)) ∧
      (st ≠ 0 → respond = .next (result (if q.peek = true ∧ st = 2 then 2 else 6) 0 s1)) ∧
      (due → expire = .next (result 6 0 s1b))) ∧
    (q.use = .orphan → respond = .next s1 ∧ (due → expire = .next s1b))

/-- R441, R480, R484, R493: the tile signals its OWNER_RESET pulses one at a time, with their scope and first owner ID, none while a pin holds it
in reset; the acknowledgement lets the threads of the scope send requests again, and a tile that waited for it starts, unless a
further pulse for the tile is still due. R441 raises source 38 when a wake from Off completes: that it completes with that start is the
model's reading (log entry 60). -/
def Sys2Proof.Claims.OwnerResets : Prop :=
  ∀ (o : OwnScope) (rest : List OwnScope) (t : ThreadId) (s : State),
    let pulse := match o with
      | .thread t => (0#2, s.node ++ BitVec.ofNat 7 t.val)
      | .core c => (1#2, s.node ++ BitVec.ofNat 7 (8 * c.val))
      | .tile => (2#2, s.node ++ 0#7)
    (s.resetHeld = true → exec .ownerReset s = .next s) ∧
    (s.resetHeld = false → s.ownWait = none → s.ownq = o :: rest → exec .ownerReset s = .next
      { s with
        ownWait := some o
        ownq := rest
        ports := { s.ports with ownReset := some pulse } }) ∧
    (s.ownWait = some o → Quiet s → s.boot = .run → (∀ c, o = .core c → (s.cor c).inReset = none) →
      exec (.ownerResetAck false) s = .next { s with ownWait := none }) ∧
    (s.ownWait = some o → s.boot = .run → s.ownq = [] → inScope t o = true → Quiet s → ownerHeld s t = true ∧
      ∃ u, exec (.ownerResetAck false) s = .next u ∧ ownerHeld u t = false) ∧
    (∀ kind : BitVec 3, s.ownWait = some .tile → s.boot = .ackWait kind → Quiet s → (s.dbg.rsthalt && s.dbg.attached) = false →
      let run := { s with ownWait := none, boot := .run }
      exec (.ownerResetAck false) s = .next (if .tile ∈ s.ownq then { s with ownWait := none }
        else if kind = 1 then raiseSrc 38 run else run))

/-! ### The time keeper and the interrupt controller -/

/-- R160, R163, R165, R166, R167, R251, R428, R435, R492: a cycle of the time keeper adds INCR and the slew step sign(ADJ) × min(|ADJ|, 2^SLEW), in
units of 2⁻¹⁶ ns, to the timebase with its 24 hidden bits, and takes the step off ADJ; the counts to a FOLLOW load, since the last edge
and of the second that follows a failed unlock move by one. When it completes a core cycle, the cycle count, a running leash and
the time that a core has napped move by one. An emulated rest level changes none of this. In Nap the timebase and the cores' copies go
on, and of the counts of the core clock only those of the rest levels. In Sleep it adds INCR × 46,875 ÷ 64 and ADJ stands still. Off, it
keeps no time. What happens where a sum is negative or reaches 2⁴⁷ s is left out here (log entry 76). That one command is one cycle, or
in Sleep one tick, and carries the core clock with it, how a nap is counted, and that the second after a failed unlock is counted in
cycles and ticks is the model's choice and reading (log entries 10, 59 and 62). -/
def Sys2Proof.Claims.TimeKeeperCycle : Prop :=
  ∀ (t : ThreadId) (c : CoreId) (s : State),
    let run := exec .timeKeeperCycle s
    let a := s.tk.adj.toInt
    let step : Int := a.sign * min a.natAbs (2 ^ s.tk.slew.toNat)
    let sum : Int := (s.tk.tb : Int) + s.tk.incr.toNat + step * 2 ^ 24
    let top : Int := 2 ^ 47 * 65536000000000 * 2 ^ 24
    (s.boot = .run → s.pwr.rest = .nap → s.emulates = false → s.tk.load ≠ some 0 → 0 ≤ sum → sum < top →
      ∃ u, run = .next u ∧ (u.tk.tb : Int) = sum ∧ u.tk.adj = s.tk.adj - BitVec.ofInt 48 step ∧ u.tk.incr = s.tk.incr ∧
        u.tk.load = s.tk.load.map (· - 1) ∧ u.tk.ppsAge = s.tk.ppsAge.map (· + 1) ∧ u.lc = { s.lc with blocked := s.lc.blocked - 64 } ∧
        (s.frozen = false → clkDiv s.profile.clk ≤ s.tk.coreAcc + 2 → u.tk.prev1 = s.now ∧ u.tk.prev2 = s.tk.prev1 ∧
          (u.cor c).rested = if (s.cor c).rest = .nap then (s.cor c).rested + 1 else 0) ∧
        u.fetch = s.fetch ∧ u.threads = s.threads ∧ u.mem = s.mem ∧ u.tic = s.tic ∧ u.heel = s.heel ∧ u.help = s.help) ∧
    (s.boot = .run → s.pwr.rest = .run ∨ (s.emulates = true ∧ s.pwr.rest ≠ .off) → s.tk.load ≠ some 0 → 0 ≤ sum → sum < top →
      (∀ (v : ThreadId) (n : Nat), (s.thr v).pend ≠ .flush n) →
      ∃ u, run = .next u ∧ (u.tk.tb : Int) = sum ∧ u.tk.adj = s.tk.adj - BitVec.ofInt 48 step ∧ u.tk.incr = s.tk.incr ∧
        u.tk.mode = s.tk.mode ∧ u.tk.load = s.tk.load.map (· - 1) ∧ u.tk.ppsAge = s.tk.ppsAge.map (· + 1) ∧
        u.lc = { s.lc with blocked := s.lc.blocked - 64 } ∧
        (s.frozen = false → clkDiv s.profile.clk ≤ s.tk.coreAcc + 2 →
          u.fetch.cycle = s.fetch.cycle + 1 ∧ u.tk.prev1 = s.now ∧ u.tk.prev2 = s.tk.prev1 ∧
          ((s.thr t).leash.on = true → (s.thr t).leash.count ≠ 0 →
            (u.thr t).leash = { (s.thr t).leash with count := (s.thr t).leash.count - 1 }) ∧
          ((s.cor c).rest = .run → (u.cor c).seen = standingCalls s c) ∧
          (u.cor c).rested = if (s.cor c).rest = .nap then (s.cor c).rested + 1 else 0) ∧
        (s.frozen = true → (∀ ea st, (s.thr t).pend ≠ .cas6 ea st) → (∀ q st, (s.thr t).pend ≠ .cust q st) → u.thr t = s.thr t) ∧
        u.cor c = { s.cor c with
          wdg := (u.cor c).wdg
          idle := (u.cor c).idle
          rested := (u.cor c).rested
          seen := (u.cor c).seen
          btbMark := (u.cor c).btbMark } ∧
        (u.thr t).arch = (s.thr t).arch ∧ u.mem = s.mem ∧ u.tic = s.tic ∧ u.heel = s.heel ∧ u.help = s.help) ∧
    (s.boot = .run → s.pwr.rest = .sleep → s.emulates = false → (s.tk.tb + s.tk.incr.toNat * 46875 / 64 : Nat) < top →
      run = .next { s with
        tk := { s.tk with tb := s.tk.tb + s.tk.incr.toNat * 46875 / 64 }
        lc := { s.lc with blocked := s.lc.blocked - 46875 } }) ∧
    (s.pwr.rest = .off → run = .next s)

/-- R132, R141, R142, R418, R475, R479, R480: the ports in a core cycle of a tile at Run. At the fabric's stands the oldest request it has
not taken and whose owner waits for no OWNER_RESET_ACK, in Off none; with FAB_RDY it is taken, and those it has taken grow older. At the semaphore port stands the oldest request;
with SEM_RDY it is taken, and the limit of its CAS6 stands at TIMEOUT, none for 0, and runs from the cycle after. One that is taken and
limited may be stalled, and then its thread is parked. With CH_RDY the customer request at its port is accepted, with CHTO as its limit.
A FLUSH invalidates one set of its core's D-cache, here with no other in flight, and retires with set 127. That requests go to a port
in their order (log entry 128), that the ready signals and the stall, which no command carries, are free values (log entries 128, 135
and 34), when the limit starts (log entry 135), and that the sets are passed cycle by cycle as these cycles come (log entry 66) is the
model's choice and reading. -/
def Sys2Proof.Claims.PortCycles : Prop :=
  ∀ (t : ThreadId) (ea : BitVec 36) (s : State),
    let held := fun (q : FabReq) => ∃ v : ThreadId, v.val = q.owner.toNat % 128 ∧ ownerHeld s v = true
    let at' := fun (q : FabReq) => ∃ pre post, s.fab.out = pre ++ q :: post ∧ (∀ r ∈ pre, r.taken = true ∨ held r) ∧ q.taken = false ∧ ¬held q
    let aged := fun (r : FabReq) => if r.taken then { r with age := r.age + 1 } else r
    let run := exec .timeKeeperCycle s
    (s.pwr.rest = .off → s.fabPort = none) ∧
    (s.pwr.rest ≠ .off → ∀ q, s.fabPort = some q ↔ at' q) ∧
    (∀ (st : Cas6Stage), parkCode (.cas6 ea st) = 5 ↔ ∃ n, st = .taken n true) ∧
    (s.boot = .run → s.pwr.rest = .run → clkDiv s.profile.clk ≤ s.tk.coreAcc + 2 →
      ((∀ (v : ThreadId) (n : Nat), (s.thr v).pend ≠ .flush n) → ∃ u, run = .next u ∧ u.freeCtr = s.freeCtr + 1 ∧
        (Config.fabRdy s.freeCtr = false ∨ s.fabPort = none → u.fab = { s.fab with out := s.fab.out.map aged }) ∧
        (Config.fabRdy s.freeCtr = true → ∀ pre q post, s.fab.out = pre ++ q :: post → (∀ r ∈ pre, r.taken = true ∨ held r) →
          q.taken = false → ¬held q →
          u.fab = { s.fab with out := pre.map aged ++ { q with taken := true } :: post.map aged }) ∧
        (∀ q rest, s.ports.semReq = q :: rest → (s.thr q.thread).pend = .cas6 ea .offered →
          let limit := (s.thr q.thread).semTimeout.toNat
          (Config.semRdy s.freeCtr = true → u.ports.semReq = rest ∧
            (u.thr q.thread).pend = .cas6 ea (.taken (if limit = 0 then none else some limit) false)) ∧
          (Config.semRdy s.freeCtr = false → u.ports.semReq = q :: rest ∧ (u.thr q.thread).pend = .cas6 ea .offered)) ∧
        (∀ n stalled, (s.thr t).pend = .cas6 ea (.taken (some n) stalled) → (u.thr t).pend =
          .cas6 ea (.taken (some (if s.frozen then n else n - 1)) (stalled || Config.semStalls s.freeCtr t.val))) ∧
        (∀ stalled, (s.thr t).pend = .cas6 ea (.taken none stalled) → (u.thr t).pend = .cas6 ea (.taken none stalled)) ∧
        (∀ q, s.ports.chReq = some q → q.id.toNat % 128 = t.val → (s.thr t).pend = .cust q .offered →
          (Config.chRdy s.freeCtr = true → s.frozen = false → (u.thr t).pend = .cust q (.accepted (custLimit s.help)) ∧
            ((∀ v, (s.thr v).pend ≠ .cust q .waiting) → u.ports.chReq ≠ some q)) ∧
          (Config.chRdy s.freeCtr = false → (u.thr t).pend = .cust q .offered ∧ u.ports.chReq = some q))) ∧
      (∀ n, (s.thr t).pend = .flush n → (∀ v, v ≠ t → ∀ k, (s.thr v).pend ≠ .flush k) → mayWake s t = true →
        ∃ u, run = .next u ∧ (u.cor t.core).dlines = (s.cor t.core).dlines.filter (fun l => decide ((l.addr / 48) % 128 ≠ n)) ∧
          (∀ c, c ≠ t.core → (u.cor c).dlines = (s.cor c).dlines) ∧
          (n < 127 → (u.thr t).pend = .flush (n + 1) ∧ (u.thr t).arch = (s.thr t).arch) ∧
          (127 ≤ n → (s.thr t).robPar = false → (s.thr t).inj = none → s.dbg.stepping = false → pcHits s t = 0 →
            (u.thr t).pend = .none ∧ (u.thr t).arch = { (s.thr t).arch with pc := (s.thr t).arch.pc + 1 })))

/-- R164, R165, R190: the interval is added to the timebase by exact value, its hidden bits kept, unless the sum has negative SEC or the
coming cycle is that of a FOLLOW load: then STEPERR sets and source 34 rises, and the timebase stays. That a step comes with the cycle
that follows it is the model's reading (log entry 11). -/
def Sys2Proof.Claims.TimeStep : Prop :=
  ∀ s : State,
    let v : Int := s.now + timeValue s.tk.stephi s.tk.steplo
    let refused := exec .timeStep s = .next (raiseSrc 34 { s with tk := { s.tk with steperr := true } })
    (0 ≤ v → v < 2 ^ 47 * 65536000000000 → (s.tk.load ≠ some 0 ∨ followValue s.tk = none) →
      exec .timeStep s = .next { s with tk := { s.tk with tb := v.toNat * 2 ^ 24 + s.tk.tb % 2 ^ 24 } }) ∧
    (v < 0 → -(2 ^ 47 * 65536000000000) ≤ v → refused) ∧
    (s.tk.load = some 0 → (followValue s.tk).isSome = true → refused)

/-- R165, R166: an edge captures the timebase in normal form and the bus, sets PPS, raises source 32, and in FOLLOW the fourth cycle from
then loads: the bus plus 4 × INCR, hidden bits cleared, with no slew step and ADJ as it is; a bus value that is not normal, or
whose SEC is or becomes negative, sets BUSERR, raises source 34 and loads nothing. In CAPTURE and FOLLOW an edge that has not come for
1.5 × 10⁹ cycles sets MISS and raises source 33, once. When the captures are taken, and that the first interval counts from reset,
are the model's reading (log entries 71 and 77). -/
def Sys2Proof.Claims.PpsCapture : Prop :=
  ∀ (bus : BitVec 96) (s : State), s.pwr.rest = .run →
    (∃ hi lo, IsTime (s.now : Int) hi lo ∧ exec (.ppsEdge bus) s = .next (raiseSrc 32 { s with tk := { s.tk with
      ppshi := hi
      ppslo := lo
      bushi := bus.extractLsb' 48 48
      buslo := bus.extractLsb' 0 48
      pps := true
      load := if s.tk.mode = .follow then some 3 else s.tk.load
      ppsAge := some 0 } })) ∧
    (s.tk.load = some 0 → s.boot = .run →
      let v := s.tk.bushi.toNat * 65536000000000 + s.tk.buslo.toNat + 4 * s.tk.incr.toNat / 2 ^ 24
      exec .followLoad s = exec .timeKeeperCycle s ∧ ∃ u, exec .followLoad s = .next u ∧ u.tk.load = none ∧
        (s.tk.buslo.toNat < 65536000000000 → v < 2 ^ 47 * 65536000000000 → s.tk.bushi.getLsbD 47 = false →
          u.tk.tb = v * 2 ^ 24 ∧ u.tk.adj = s.tk.adj ∧ u.tk.buserr = s.tk.buserr ∧ u.tic = s.tic) ∧
        (65536000000000 ≤ s.tk.buslo.toNat ∨ 2 ^ 47 * 65536000000000 ≤ v ∨ s.tk.bushi.getLsbD 47 = true →
          u.tk.tb = (tkAdvance s.tk).tb ∧ u.tk.adj = (tkAdvance s.tk).adj ∧ u.tk.buserr = true ∧
          u.src 34 = { s.src 34 with pend := true } ∧ ∀ i, i ≠ 34 → u.src i = s.src i)) ∧
    (s.tk.load ≠ some 0 → exec .followLoad s = .next s) ∧
    (∀ n, s.tk.mode ≠ .free → s.tk.ppsAge = some n → 1500000000 ≤ n →
      exec .ppsMiss s = .next (raiseSrc 33 { s with tk := { s.tk with miss := true, ppsAge := none } })) ∧
    (s.tk.mode = .free ∨ (∀ n, s.tk.ppsAge = some n → n < 1500000000) → exec .ppsMiss s = .next s)

/-- R267, R269, R270, R271: an edge on a source that exists sets its PEND and changes no other source; while the TIC's clock stands still the
edge sets the always-on latch of a source that has one, and is lost for the others. A retraction clears PEND and releases the hold.
Each rising EXT_IRQ[k] is source 64 + k, and THR.EVENT.SET raises source 320 + t with EV of thread t. -/
def Sys2Proof.Claims.SourceEdges : Prop :=
  ∀ (i : BitVec 9) (k : BitVec 8) (t : ThreadId) (s : State),
    (s.ticStopped = false → srcExists i.toNat = true → ∃ u, exec (.sourceSetPending i) s = .next u ∧
      u.src i.toNat = { s.src i.toNat with pend := true } ∧ (∀ j, j ≠ i.toNat → u.src j = s.src j) ∧
      u.threads = s.threads ∧ u.cores = s.cores ∧ u.mem = s.mem ∧ u.tic.latches = s.tic.latches) ∧
    (s.ticStopped = true → srcExists i.toNat = true → ∃ u, exec (.sourceSetPending i) s = .next u ∧ u.tic.src = s.tic.src ∧
      (∀ j : Nat, u.tic.latches.getLsbD j = (s.tic.latches.getLsbD j || (decide (j = i.toNat) && srcAon i.toNat)))) ∧
    (srcExists i.toNat = false → exec (.sourceSetPending i) s = .next s) ∧
    (∃ u, exec (.extIrqEdge k) s = .next u ∧ exec (.sourceSetPending (BitVec.ofNat 9 (64 + k.toNat))) s = .next u) ∧
    (s.ticStopped = false → ∃ u, exec (.extRetract k) s = .next u ∧
      u.src (64 + k.toNat) = { s.src (64 + k.toNat) with pend := false, held := none } ∧
      (∀ j, j ≠ 64 + k.toNat → u.src j = s.src j) ∧ u.threads = s.threads ∧ u.cores = s.cores ∧ u.mem = s.mem) ∧
    ((s.thr t).pend = .none → exec (.eventSet t) s = .next (raiseSrc (320 + t.val) (s.modThr t fun th => { th with ev := true })))

/-- What a register-read command returns at the port that asked. -/
def Sys2Proof.Machine.State.setRdata (s : State) (v : Cell) : State := { s with ports := { s.ports with rdata := v } }

/-- R275, R286, R270: a read of TIC.CLAIM by a thread returns PRIO and the number of the best source that it may claim and takes that source's
PEND and hold away, 0 where there is none; a read of TIC.MCSTAT returns it and clears PEND and MORE; a read of TIC.WAKE k returns
its 48 latches and clears them. -/
def Sys2Proof.Claims.ReadsWithEffect : Prop :=
  ∀ (t : ThreadId) (i : Nat) (k : Fin 7) (s : State),
    (claimSource s t = some i → exec (.ticClaim t) s =
      .next ((s.setSrc i { s.src i with pend := false, held := none }).setRdata (claimCell s t))) ∧
    (claimSource s t = none → exec (.ticClaim t) s = .next (s.setRdata 0)) ∧
    exec .mcstatRead s = .next (State.setRdata { s with tic := { s.tic with mcPend := false, mcMore := false } } (mcstatCell s)) ∧
    (∃ u, exec (.wakeLatchRead k) s = .next u ∧ u.tic.src = s.tic.src ∧ u.threads = s.threads ∧
      (∀ j < 48, u.ports.rdata.getLsbD j = s.tic.latches.getLsbD (48 * k.val + j)) ∧
      (∀ j, u.tic.latches.getLsbD j = (s.tic.latches.getLsbD j && !decide (48 * k.val ≤ j ∧ j < 48 * k.val + 48))))

/-- R259, R264, R273, R274, R279: at a boundary a thread that no machine check waits for, with a source that it recognises, which no lower
thread number can take, with nothing in flight and room for a frame, enters at the source's level with IPL at its priority,
holds the source for itself, and continues at the level's vector slot 0, the interrupted state in the frame; with no such source it
goes on unchanged, and a machine check goes first. -/
def Sys2Proof.Claims.InterruptEntry : Prop :=
  ∀ (t : ThreadId) (i : Nat) (s : State), mayRecognise s t = true → (s.thr t).pend = .none → (s.thr t).inj = none →
    (s.thr t).robPar = false →
    let best := bestSource s fun i => recognisable s t (s.thr t).arch.ipl (s.thr t).arch.level i && firstFor s t i
    let l := (s.src i).lvl
    let a := entryArch (s.thr t).arch l
    let v : WAddr := BitVec.ofNat 20 (((s.cor t.core).vbase l).toNat * 512)
    let s1 := holdFor i t (beginWord t s)
    (mcWaits s t = false → best = some i → (a.stk l).rs.fits ((a.stk l).rs.depth + 2) = true →
      (∃ w, fetchWord s1 t.core v = (.word w, s1)) →
      ∃ u, exec (.interruptEntry t false) s = .next u ∧ (u.thr t).arch.pc = v ∧ (u.thr t).arch.level = l ∧
        (u.thr t).arch.handler = true ∧ (u.thr t).arch.ipl = (s.src i).prio ∧ (u.thr t).resv = none ∧
        (u.src i).held = some t ∧ (u.src i).pend = (s.src i).pend ∧
        (∃ rest, (u.stk t l true).res = PCell.of (statusEntry (s.thr t).arch l 0 (BitVec.ofNat 9 i)) ::
          PCell.of (pcEntry (s.thr t).arch) :: rest)) ∧
    (mcWaits s t = false → best = none → exec (.interruptEntry t false) s = .next (beginWord t s)) ∧
    (mcWaits s t = true → exec (.interruptEntry t false) s = .next s)

/-- R286 to R288: with PEND set and no machine check active on the delivery thread, with nothing in flight there, the machine check enters
at M with cause 0x3F, REASON in its record, IPL 15 and MCACT, and ends any leash. PEND stays for the handler to read. Without PEND
nothing happens. -/
def Sys2Proof.Claims.MachineCheckEntry : Prop :=
  ∀ (t : ThreadId) (s : State),
    let a := entryArch (s.thr t).arch .M
    let v : WAddr := BitVec.ofNat 20 ((s.cor t.core).vbaseM.toNat * 512 + 8 * 0x3F)
    let s1 := (beginWord t s).modThr t endLeash
    (s.tic.mcPend = true → mcTarget s = some t → (s.thr t).arch.mcact = false → s.frozen = false → s.boot = .run →
      coreUp s t.core = true → (s.thr t).pend = .none → (s.thr t).inj = none → (s.thr t).robPar = false →
      (a.stk .M).rs.fits ((a.stk .M).rs.depth + 2) = true → (∃ w, fetchWord s1 t.core v = (.word w, s1)) →
      ∃ u, exec .machineCheckEntry s = .next u ∧ (u.thr t).arch.pc = v ∧ (u.thr t).arch.level = .M ∧
        (u.thr t).arch.handler = true ∧ (u.thr t).arch.ipl = 15 ∧ (u.thr t).arch.mcact = true ∧
        (u.thr t).xrecM = 0x3F#6 ++ s.tic.mcReason ++ levelBits (s.thr t).arch.level ++ 0#36 ∧
        (u.thr t).leash.on = false ∧ (u.thr t).leash.count = 0 ∧ u.tic = s.tic) ∧
    (s.tic.mcPend = false → exec .machineCheckEntry s = .next s)

/-- R255, R256, R257, R279: a leash whose COUNT has reached 0 ends with LEASH_OVR, and leaves an overrun to be taken where LEASH.TRAP asked
for it when it was started, or where one is pending already; the overrun is taken at the first boundary of the leashed code, after a machine
check, interrupts and store faults, with cause 0x0B, and until then no word of the leashed code issues. A leash that still
counts goes on. -/
def Sys2Proof.Claims.LeashEnds : Prop :=
  ∀ (t : ThreadId) (s : State),
    let r := (s.thr t).leash
    (r.on = true → r.count = 0 → s.frozen = false → exec (.leashExpiry t) s = .next (s.modThr t fun th =>
      { th with leash := { r with
        on := false
        ovr := true
        ovrpend := r.ovrpend || r.trap
        nest := if r.ovrpend then r.nest else 0 } })) ∧
    (r.count ≠ 0 → exec (.leashExpiry t) s = .next s) ∧
    (r.ovrpend = true → r.nest = 0 → canIssue s t = false) ∧
    (r.ovrpend = true → r.nest = 0 → atBoundary s t = true → (s.thr t).sfPend = [] →
      (s.thr t).pend = .none → (s.thr t).inj = none → (s.thr t).robPar = false →
      exec (.leashOverrun t) s = .next (takeException t { cause := 0x0B, sub := 0, addr := 0 }
        ((beginWord t s).modThr t fun th => { th with leash := { th.leash with ovrpend := false } })))

/-! ### Resets and watchdogs -/

/-- A thread as every reset leaves it, but for its stacks' areas, EN and its data windows (R229, R484, R503): at the reset entry at M level
with nothing in flight, its registers clear, both stacks of every level empty, and RSTINFO recording the reset. -/
structure Sys2Proof.FreshThread (rst : Cell) (th : Thread) : Prop where
  entry : th.arch.pc = 0xFF000 ∧ th.arch.level = .M ∧ th.arch.handler = false ∧ th.arch.ipl = 0 ∧ th.arch.mcact = false
  preds : th.arch.p1 = false ∧ th.arch.p2 = false ∧ th.arch.p3 = false
  idle : th.pend = .none ∧ th.stopped = false ∧ th.resv = none ∧ th.cur = none ∧ th.slot = none ∧ th.ev = false ∧ th.skip = false ∧
    th.oldPreds = []
  faults : th.sfPend = [] ∧ th.sfar.valid = false ∧ th.xrecT = 0 ∧ th.xrecS = 0 ∧ th.xrecM = 0
  arith : th.arith = { dzTrap := false, dz := false, ov := false }
  leash : th.leash.on = false ∧ th.leash.ovrpend = false ∧ th.leash.count = 0 ∧ th.leash.ovr = false ∧ th.leash.clamp = false
  sem : th.semGroup = 0 ∧ th.semTimeout = 65536
  gates : th.arch.glS.valid = false ∧ th.arch.glM.valid = false ∧ th.grant = false
  empty : ∀ (l : Level) (rs : Bool), let k := (th.arch.stk l).get rs
    k.res = [] ∧ k.base.toNat = min k.lo.toNat 0x18000 ∧ k.sp = k.base
  record : th.rstinfo = rst

/-- THR.RSTINFO of R485: KIND in [47:45], SRC in [44:42], BY in [41:35]. -/
def Sys2Proof.resetRecord (kind src by' : Nat) : Cell := BitVec.ofNat 48 (kind * 2 ^ 45 + src * 2 ^ 42 + by' * 2 ^ 35)

/-- SRC and BY of a reset by a register write (R485). -/
def Sys2Proof.writerRecord (kind : Nat) : Agent → Cell
  | .whistle => resetRecord kind 1 0
  | .thread u => resetRecord kind 3 u.val

/-- What the requests of a scope leave at the fabric as its OWNER_RESET is signalled (R480): none that the fabric has not taken and whose
word or store is gone. One that it has taken, and every other owner's, stays, but that nobody may wait for it. No line fill starts. -/
structure Sys2Proof.Withdrawn (o : OwnScope) (s u : State) : Prop where
  gone : ∀ r ∈ u.fab.out, r.taken = false → inScope r.thread o = true → r.use ≠ .orphan
  kept : ∀ r ∈ s.fab.out, r.taken = true ∨ inScope r.thread o = false → ∃ use, { r with use := use } ∈ u.fab.out
  fills : ∀ c, ∀ e ∈ (u.cor c).dfills, e ∈ (s.cor c).dfills

/-- R229, R480, R503: a thread reset leaves its thread as every reset does, with the limits of both stacks of every level, EN and the data
windows of S and T kept, releases its sources, and signals OWNER_RESET for it; a request that the fabric has not taken and whose word has
gone is withdrawn, its line fill with it, and its stores stay. No other thread, nothing else of a core and no memory changes. That LEASH_OVR
clears with the rest of its register, as R503 says, is the model's reading beside R255 (log entry 84); that such a request is withdrawn is
its reading too (log entry 53). Here no item stands in the tile. -/
def Sys2Proof.Claims.ThreadReset : Prop :=
  ∀ (ag : Agent) (t : ThreadId) (s : State), s.boot = .run → s.fetch.items = [] →
    ∃ u, exec (.threadReset ag t) s = .next u ∧ FreshThread (writerRecord 4 ag) (u.thr t) ∧
      (u.thr t).en = (s.thr t).en ∧ (u.thr t).dwloT = (s.thr t).dwloT ∧ (u.thr t).dwhiT = (s.thr t).dwhiT ∧
      (u.thr t).dwloS = (s.thr t).dwloS ∧ (u.thr t).dwhiS = (s.thr t).dwhiS ∧
      (∀ (l : Level) (rs : Bool), (u.stk t l rs).lo = (s.stk t l rs).lo ∧ (u.stk t l rs).hi = (s.stk t l rs).hi) ∧
      (∀ i, (u.src i).held ≠ some t) ∧
      (∀ v, v ≠ t → u.thr v = s.thr v) ∧ u.mem = s.mem ∧ u.sprog = s.sprog ∧
      (∀ c, c ≠ t.core → u.cor c = s.cor c) ∧ u.cor t.core = { s.cor t.core with dfills := (u.cor t.core).dfills } ∧
      u.ownq = s.ownq ++ [.thread t] ∧ Withdrawn (.thread t) s u ∧ ∀ r ∈ s.fab.out, r.use = .store t → r ∈ u.fab.out

/-- R318, R346, R390, R484, R486, R503: a core reset first lets the words and stores of its threads go, ends its borrow with no copy-back and
signals OWNER_RESET for the core, which is out of service from then on; what they asked of the fabric and it has not taken goes with them. Once that is acknowledged, with no further reset of the core due,
the eight threads stand as every reset leaves them, their areas and EN from the profile in effect; the core's caches and store buffer
are empty, its fence ends and its fields come from the profile. No other thread or core, and no memory, changes. Here no item stands in
the tile. A core reset clears no valid bit, those of the borrow buffer among them (R346). That the core waits out of service for the
acknowledgement, that a core that the profile makes deterministic then stands in its switch with ACT 0, and that LEASH_OVR clears are
the model's readings (log entries 53, 86 and 84). -/
def Sys2Proof.Claims.CoreReset : Prop :=
  ∀ (ag : Agent) (c : CoreId) (rst : Cell) (s : State), s.boot = .run →
    (s.fetch.items = [] → ∃ u, exec (.coreReset ag c) s = .next u ∧ (u.cor c).inReset = some (writerRecord 3 ag) ∧
      (∀ v : ThreadId, v.core = c → (u.thr v).pend = .none ∧ (u.thr v).slot = none ∧ (u.thr v).cur = none ∧
        canIssue u v = false ∧ ∀ i, (u.src i).held ≠ some v) ∧
      (u.cor c).sb = [] ∧ (u.cor c).fenced = (s.cor c).fenced ∧ (u.cor c).borrow.active = false ∧
      (u.cor c).borrow.buf = (s.cor c).borrow.buf ∧
      (∀ v : ThreadId, v.core ≠ c → u.thr v = s.thr v) ∧ (∀ d, d ≠ c → u.cor d = s.cor d) ∧
      u.mem = s.mem ∧ u.sprog = s.sprog ∧ u.ownq = s.ownq ++ [.core c] ∧ Withdrawn (.core c) s u ∧
      ∀ r ∈ u.fab.out, r.taken = false → ∀ v : ThreadId, v.core = c → r.use ≠ .store v) ∧
    (s.ownWait = some (.core c) → (s.cor c).inReset = some rst → Quiet s →
      (.core c ∈ s.ownq → exec (.ownerResetAck false) s = .next { s with ownWait := none }) ∧
      (.core c ∉ s.ownq → ∃ u, exec (.ownerResetAck false) s = .next u ∧
        (∀ v : ThreadId, v.core = c → FreshThread rst (u.thr v) ∧ (u.thr v).en = s.profile.threadOn v ∧
          ∀ (l : Level) (rs : Bool), (u.stk v l rs).lo = ((Thread.boot s.profile v rst).arch.stk l |>.get rs).lo ∧
            (u.stk v l rs).hi = ((Thread.boot s.profile v rst).arch.stk l |>.get rs).hi) ∧
        (∀ v : ThreadId, v.core ≠ c → u.thr v = s.thr v) ∧ (∀ d, d ≠ c → u.cor d = s.cor d) ∧
        (u.cor c).inReset = none ∧ (u.cor c).fenced = false ∧ (u.cor c).sb = [] ∧ (u.cor c).dlines = [] ∧
        (u.cor c).ilines = [] ∧ (u.cor c).btb = [] ∧ (u.cor c).lprog = (s.cor c).lprog ∧ (u.cor c).cmpa = (s.cor c).cmpa ∧
        (u.cor c).cmpb = (s.cor c).cmpb ∧ (u.cor c).enabled = s.profile.coreOn c ∧ (u.cor c).act = false ∧
        (u.cor c).det = s.profile.coreDet c ∧ (u.cor c).switching = s.profile.coreDet c ∧ (u.cor c).borrow.buf = (s.cor c).borrow.buf ∧
        u.mem = s.mem ∧ u.sprog = s.sprog ∧ u.ownq = s.ownq))

/-- What the tile reads as it boots needs no correction: the life-cycle marks and the profile that the pins name (R442, R489). A reset that
is held has not booted yet. -/
def Sys2Proof.BootReadsSound (kind : BitVec 3) (isHeld : Bool) (pins : Pins) (s : State) : Prop :=
  isHeld = true ∨ ∀ a, (0xF0000000 ≤ a ∧ a < 0xF0000048) ∨ (profileBase pins.prof.toNat ≤ a ∧ a < profileBase pins.prof.toNat + 768) →
    ∀ d, classify (smGet 0 (bootMem kind s) a) ≠ .ce d

/-- Profile p, as the keep store of a state holds it, reads well, passes the checks of R445, and gives these fields (R442). -/
def Sys2Proof.ProfileStands (p : BitVec 2) (x : Profile) (s : State) : Prop :=
  ∃ cell : Nat → Cell, (∀ i < 128, peekSpan s .normal (0xF0000C00 + 0x300 * p.toNat + 6 * i) 6 = .ok (cellBytes (cell i))) ∧
    (cell 0).extractLsb' 32 16 = 0x9F1E ∧ (cell 0).extractLsb' 28 4 = 1 ∧ ((cell 0).extractLsb' 24 4).toNat = p.toNat ∧
    (cell 127).extractLsb' 0 32 = crc32cOf ((List.range 127).flatMap fun i => cellBytes (cell i)) ∧
    x = profileOf cell ∧ x.cores ≠ 0 ∧ 1 ≤ x.threads ∧ x.threads ≤ 8 ∧ x.dthreads ≤ 8

/-- The areas of a thread's stacks at one level: LO and HI of the operand stack, LO and HI of the return stack. -/
def Sys2Proof.areas (t : ThreadId) (l : Level) (s : State) : List Nat :=
  [(s.stk t l false).lo.toNat, (s.stk t l false).hi.toNat, (s.stk t l true).lo.toNat, (s.stk t l true).hi.toNat]

/-- The areas that a stack template gives a thread of its core, each sum cut at 0x1_8000 (R443). -/
def Sys2Proof.templateAreas (c : Cell) (t : ThreadId) : List Nat :=
  let os := (c.extractLsb' 20 11).toNat
  let rs := (c.extractLsb' 9 11).toNat
  let lo := (c.extractLsb' 31 17).toNat + 6 * (os + rs) * (t.val % 8)
  [lo, lo + 6 * os, lo + 6 * os, lo + 6 * os + 6 * rs].map (min 0x18000)

/-- The tile as a reset of tile scope or wider leaves it at step 5 of R484, register group by register group of R503: every thread at the
reset entry, the pins sampled, the profile that they name loaded from the keep store, or the fallback of R445 with PROFERR, and the stack
areas set from it (R443, R234), the timebase, the interrupt sources, the gates and the nodes clear, but for
source 35, which pends where a keep-store write that was in progress has set DONE (R323, R493); the logs
(but for what the boot's own reads count) and KNL.STATUS kept by a tile reset alone, KS.STATUS and the wake latches by all but a power-on reset; the requests of parked CAS6
withdrawn and OWNER_RESET of the tile to be signalled; it waits for the release of a reset that is held, and else for the
acknowledgement. -/
structure Sys2Proof.FreshTile (kind : BitVec 3) (rst : Cell) (isHeld : Bool) (pins : Pins) (s u : State) : Prop where
  threads : ∀ t : ThreadId, FreshThread rst (u.thr t) ∧ (u.thr t).en = u.profile.threadOn t ∧
    (u.thr t).dwloT = 0xFFFFFFFFF ∧ (u.thr t).dwhiT = 0 ∧ (u.thr t).dwloS = 0xFFFFFFFFF ∧ (u.thr t).dwhiS = 0
  sampled : u.node = pins.node ∧ u.profIdx = pins.prof
  profile : let b := { s with mem := bootMem kind s }
    (∀ x, ProfileStands pins.prof x b → u.profile = x ∧ u.pwr.proferr = false) ∧
    ((∀ x, ¬ProfileStands pins.prof x b) → u.profile = fallbackProfile ∧ u.pwr.proferr = true)
  areas : ∀ t : ThreadId, areas t .S u = templateAreas u.profile.stackS t ∧ areas t .T u = templateAreas u.profile.stackT t ∧
    areas t .M u = [0x14000, 0x14300, 0x14300, 0x14600].map (· + 0x600 * (t.val % 8))
  walkers : u.ecc.left = List.replicate 18 (2 ^ max 4 (min 20 u.ecc.rate.toNat))
  loaded : u.ecc.legacy = u.profile.bytecode.getLsbD 0 ∧ u.ecc.rate = u.profile.scrub.extractLsb' 0 5 ∧
    u.fetch.admitOn = u.profile.fetch.getLsbD 4 ∧ u.help.chto = u.profile.help.extractLsb' 20 12 ∧
    u.pwr.napdly = u.profile.pwrCtl.extractLsb' 16 16 ∧ u.grace = u.profile.graceScope.extractLsb' 24 24
  time : u.tk.tb = 0 ∧ u.tk.incr = 0x00AAAAAAAAAB
  sources : (BootReadsSound kind isHeld pins s → u.tic.src =
      if kind ≠ 0 ∧ (s.ks.todo ≠ [] ∨ (s.resetHeld = true ∧ (s.src 35).pend = true)) then [(35, { Src.boot with pend := true })] else []) ∧ u.tic.mcPend = false ∧ u.tic.mcMore = false ∧
    u.tic.latches = if kind = 0 then 0 else s.tic.latches
  tables : u.gates = [] ∧ u.fetch.nodes = [] ∧ u.fetch.items = [] ∧ u.heel.flows = []
  cores : ∀ c : CoreId, (u.cor c).sb = [] ∧ (u.cor c).dlines = [] ∧ (u.cor c).ilines = [] ∧ (u.cor c).fenced = false ∧
    (u.cor c).enabled = u.profile.coreOn c ∧ (u.cor c).act = false ∧ (u.cor c).det = u.profile.coreDet c ∧
    (u.cor c).switching = u.profile.coreDet c ∧ (u.cor c).inReset = none
  comparators : ∀ c : CoreId, let k := s.cor c
    ((u.cor c).cmpa, (u.cor c).cmpb, (u.cor c).csValid, (u.cor c).csHit, (u.cor c).brkhalt) =
      if kind = 2 then (k.cmpa, k.cmpb, k.csValid, k.csHit, k.brkhalt) else (List.replicate 8 0, List.replicate 8 0, false, 0, false)
  logs : BootReadsSound kind isHeld pins s → (u.ecc.cecnt, u.ecc.celog, u.ecc.uelog, u.ecc.sat, u.ecc.ueovf, u.ecc.ceovf, u.ecc.poisoned) =
    if kind = 2 then (s.ecc.cecnt, s.ecc.celog, s.ecc.uelog, s.ecc.sat, s.ecc.ueovf, s.ecc.ceovf, s.ecc.poisoned)
    else (List.replicate 86 0, [], [], false, false, false, false)
  kennel : u.knl = if kind = 2 then s.knl else { trig := 0, wiping := false, done := false }
  keep : u.ks.todo = [] ∧ u.ks.refused = (decide (kind ≠ 0) && s.ks.refused) ∧
    u.ks.done = (decide (kind ≠ 0) && (s.ks.done || !s.ks.todo.isEmpty))
  power : u.pwr.last = (if kind = 0 then 0 else if kind = 1 then 5 else s.pwr.last) ∧ u.pwr.rest = .run ∧ u.pwr.req = none ∧
    u.pwr.refused = false ∧ u.pwr.hostwake = false ∧ u.pwr.loading = false
  life : u.lc.stateOut = (if kind = 0 ∧ isHeld then 7 else lcStateOf u) ∧ u.lc.busy = false ∧ u.lc.refused = false ∧
    u.lc.unlocked = (decide (kind = 2) && s.lc.unlocked)
  debug : u.dbg = { Debug.boot with
    attached := decide (kind ≠ 0) && s.dbg.attached
    rsthalt := decide (kind ≠ 0) && s.dbg.rsthalt }
  port : u.fab.out = [] ∧ u.ownq = [.tile] ∧ u.ownWait = (if kind = 2 then s.ownWait else none) ∧ u.held = [] ∧
    u.whi.link = (if kind = 0 then 0 else s.whi.link) ∧ u.whi.op = none ∧
    ∀ t, t ∈ u.ports.semWdr ↔ isCas6 (s.thr t).pend = true
  waits : u.boot = if isHeld then .held kind else .ackWait kind

/-- Between two states a wide reset clears V of every stored byte outside the keep store, D and C as they are, and leaves the keep store but
for the cell write that was in progress, which completes (R346, R493). The boot's reads write no byte of the keep store back (R333). -/
structure Sys2Proof.FlashCleared (s u : State) : Prop where
  cleared : memoryWf s = true → ∀ a, isKeep a = false → (∀ j ∈ s.ks.todo.head?, a < j.addr ∨ j.addr + j.bytes.length ≤ a) →
    smGet 0 u.mem a = smGet 0 s.mem a &&& 0x1FFF
  kept : s.ks.todo = [] → ∀ a, isKeep a = true → smGet 0 u.mem a = smGet 0 s.mem a
  written : ∀ j rest, s.ks.todo = j :: rest → (∀ i, (h : i < j.bytes.length) → isKeep (j.addr + i) = true →
      smGet 0 u.mem (j.addr + i) = (j.bytes[i]).getD (smGet 0 s.mem (j.addr + i))) ∧
    ∀ a, isKeep a = true → a < j.addr ∨ j.addr + j.bytes.length ≤ a → smGet 0 u.mem a = smGet 0 s.mem a

/-- R323, R431, R432, R482 to R485, R351, R346, R503: a tile reset, by its pin, the Whistle port, a bite or a completed life-cycle transition, keeps
the stored bytes and the program stores; a power-on reset and a wake from Off, which a standing cause calls for, clear every V bit but
the keep store's and leave program memory KILL. Each leaves the tile as R503 says, with KIND, SRC and BY in every thread's RSTINFO.
No register write resets the tile, nor does a source while a pin holds it in reset. That a held reset takes effect at once and again at
its release is the model's choice (log entry 55), and that source 35 pends over that release (log entry 121); that a core the profile makes deterministic stands in its switch with ACT 0, that
LEASH_OVR clears at a tile reset, and that the boot's own reads count a corrected byte are its readings (log entries 86, 84 and 98). -/
def Sys2Proof.Claims.TileResets : Prop :=
  ∀ (isHeld : Bool) (pins : Pins) (kind : BitVec 3) (c : CoreId) (t : ThreadId) (s : State),
    let tile := fun (src : ResetSrc) (n b : Nat) => ∃ u, exec (.tileReset src isHeld pins) s = .next u ∧
      FreshTile 2 (resetRecord 2 n b) isHeld pins s u ∧ (s.ks.todo = [] → u.mem = s.mem) ∧ u.sprog = s.sprog ∧
      (∀ c, (u.cor c).lprog = (s.cor c).lprog)
    (s.resetHeld = false → s.pwr.rest ≠ .off → tile .pin 0 0 ∧ (whistleResetAllowed s = true → tile .whistle 1 0)) ∧
    (s.resetHeld = false → (s.cor c).wdg.stage = .bite → (s.cor c).wdg.count = 0 → (s.cor c).wdg.ticked = true →
      (s.cor c).wdg.scope = true → tile (.bite c) 2 c.val) ∧
    (s.resetHeld = false → lcDue s = true → tile .lifeCycle 4 0) ∧
    exec (.tileReset (.register t) isHeld pins) s = .next s ∧
    (s.resetHeld = true → ∀ src, exec (.tileReset src isHeld pins) s = .next s) ∧
    (∃ u, exec (.powerOnReset isHeld pins) s = .next u ∧ FreshTile 0 (resetRecord 0 0 0) isHeld pins s u ∧
      u.sprog = [] ∧ FlashCleared s u ∧ (∀ c, (u.cor c).lprog = [])) ∧
    (s.pwr.rest = .off → latchWakes s = true ∨ s.pwr.waking = true ∨ s.whi.presenceDue = true →
      ∃ u, exec (.wakeFromOff pins) s = .next u ∧ FreshTile 1 (resetRecord 1 0 0) false pins s u ∧
        u.sprog = [] ∧ FlashCleared s u ∧ (∀ c, (u.cor c).lprog = [])) ∧
    (s.pwr.rest ≠ .off ∨ (latchWakes s = false ∧ s.pwr.waking = false ∧ s.whi.presenceDue = false) →
      exec (.wakeFromOff pins) s = .next s) ∧
    (s.boot = .held kind → ∃ u, exec (.resetRelease pins) s = .next u ∧
      FreshTile kind (s.thr 0).rstinfo false pins s u) ∧
    (s.boot = .run → exec (.resetRelease pins) s = .next s) ∧
    (fallbackProfile.cores = 0xFFFF ∧ fallbackProfile.threads = 8 ∧ fallbackProfile.det = 0 ∧ fallbackProfile.clk = 2 ∧
      fallbackProfile.stackS = 0 ∧ fallbackProfile.stackT = 0)

/-- A thread stands at the reset entry after a reset of a kind, enabled (R484, R485). -/
def Sys2Proof.AtEntry (kind : BitVec 3) (v : ThreadId) (s : State) : Prop :=
  (s.thr v).en = true ∧ (s.thr v).arch.pc = 0xFF000 ∧ (s.thr v).rstinfo.extractLsb' 45 3 = kind

/-- The boot thread's run has failed with a code: it waits in the ROM, and the code stands in its core's DBG.TXD (R487). -/
def Sys2Proof.RomFails (t : ThreadId) (k : Cell) (s u : State) : Prop :=
  (u.thr t).pend = .wfe { hi := 0x800000000000, lo := 0 } ∧ (u.thr t).arch.pc = Config.bootPark ∧
    ((s.cor t.core).txfull = false → (u.cor t.core).txd = 0x0B0000000000 + k ∧ (u.cor t.core).txfull = true) ∧ u.sprog = s.sprog

/-- The boot thread asks the fabric for the next bytes of its image, of which it has `got`. -/
def Sys2Proof.RomAsks (t : ThreadId) (others : List ThreadId) (b : BootBlock) (got : List Byte) (s u : State) : Prop :=
  (u.thr t).pend = .rom (.copies others b got true) ∧ ∃ q tag, freeTag s.fab = some tag ∧ u.fab.out = s.fab.out ++ [q] ∧
    q.tag = tag ∧ q.we = false ∧ q.addr.toNat = b.src + got.length ∧ q.len = min 48 (2 * b.nwords - got.length) ∧ q.use = .rom t ∧
    q.owner = s.node ++ BitVec.ofNat 7 t.val

/-- R487, at tile scope: once OWNER_RESET is acknowledged the enabled threads wait in the boot ROM, and the lowest reads the boot block: in
SCRAP it fails with k = 5, on a block that it cannot read or that fails a check with k = 1, and else it copies the image from host
memory at SRC; a fabric error fails with k = 4, a wrong CHECK with k = 2, in SEALED a wrong digest with k = 3, and else every thread of the
scope goes on at ENTRY. That the ROM runs as one engine where the command says so, its reads of 48 bytes and their address are the model's
choice (log entry 54). -/
def Sys2Proof.Claims.BootRom : Prop :=
  ∀ (t : ThreadId) (kind : BitVec 3) (c0 c1 c2 c3 : Cell) (others : List ThreadId) (b : BootBlock) (got : List Byte) (q : FabReq)
    (data : BitVec 384) (st : BitVec 2) (s : State),
    let bytes := cellBytes c0 ++ cellBytes c1 ++ cellBytes c2 ++ cellBytes c3
    let block : BootBlock :=
      { src := (c0.extractLsb' 0 28).toNat, nwords := (c1.extractLsb' 20 19).toNat, dest := (c1.extractLsb' 0 20).toNat
        entry := c2.extractLsb' 0 20, check := c3.extractLsb' 0 32 }
    let good := c0.extractLsb' 32 16 = 0xB0B7 ∧ c0.extractLsb' 28 4 = 1 ∧ c1.extractLsb' 39 9 = 0 ∧ c2.extractLsb' 20 28 = 0 ∧
      c3.extractLsb' 32 16 = 0 ∧ 1 ≤ block.nwords ∧ 0x10000 ≤ block.dest ∧ block.dest + block.nwords ≤ 0x90000
    (s.ownWait = some .tile → s.ownq = [] → s.boot = .ackWait kind → Quiet s → s.frozen = false →
      (s.dbg.rsthalt && s.dbg.attached) = false → AtEntry kind t s → (∀ v < t, ¬AtEntry kind v s) →
      ∃ u, exec (.ownerResetAck true) s = .next u ∧ u.boot = .run ∧
        (∀ v, v ≠ t → AtEntry kind v s →
          (u.thr v).pend = .wfe { hi := 0x800000000000, lo := 0 } ∧ (u.thr v).arch.pc = Config.bootPark) ∧
        (s.lc.stateOut = 4 → RomFails t 5 s u) ∧
        (s.lc.stateOut ≠ 4 → (∃ x, readExc 0 (busRead s .normal (span 0xF0001800 24)).1 = some x) → RomFails t 1 s u) ∧
        (s.lc.stateOut ≠ 4 → (∀ j, (h : j < bytes.length) → rawByte s .normal (0xF0001800 + j) = encByte bytes[j]) →
          (¬good → RomFails t 1 s u) ∧
          (good → block.src + 48 ≤ 2 ^ 28 → (freeTag s.fab).isSome = true → ∃ os, RomAsks t os block [] s u ∧
            ∀ v, v ∈ os ↔ v ≠ t ∧ AtEntry kind v s))) ∧
    ((s.thr t).pend = .rom (.copies others b got true) → findReq s q.tag = some q → q.use = .rom t → mayWake s t = true → Quiet { s with
        threads := s.threads.set t.val { s.thr t with pend := .none } } → t ∉ others → others.Nodup →
      (∀ v ∈ others, mayWake s v = true ∧ (∃ d, (s.thr v).pend = .wfe d) ∧ (s.thr v).robPar = false ∧ (s.thr v).inj = none ∧
        pcHits s v = 0 ∧ 2 ≤ (s.stk v (curLevel s v) false).res.length ∧ residents s v false ≤ 16) →
      let image := got ++ (List.range q.len).map fun j => (data.extractLsb' (376 - 8 * j) 8 : Byte)
      let enters := fun (u : State) => ∀ v, v = t ∨ v ∈ others → (u.thr v).pend = .none ∧ (u.thr v).arch.pc = b.entry
      ∃ u, exec (.fabResponse q.tag data st) s = .next u ∧ (residents s t false ≤ 14 → u.mem = s.mem) ∧
        (st ≠ 0 → RomFails t 4 s u) ∧
        (st = 0 →
          (∀ j, 2 * j + 1 < q.len → b.dest + (got.length / 2 + j) < 0x90000 → 0x10000 ≤ b.dest →
            smGet sharedKill u.sprog (b.dest + got.length / 2 + j) = encShared
              (BitVec.setWidth 14 ((data.extractLsb' (376 - 16 * j) 8 : Byte) ++ (data.extractLsb' (368 - 16 * j) 8 : Byte)))) ∧
          (let s1 := { s with fab := { s.fab with out := s.fab.out.filter fun r => decide (r.tag ≠ q.tag) } }
           image.length < 2 * b.nwords → b.src + image.length + 48 ≤ 2 ^ 28 → ownerHeld s t = false → (freeTag s1.fab).isSome = true →
            RomAsks t others b image s1 u) ∧
          (2 * b.nwords ≤ image.length →
            (b.check ≠ crc32cOf image → ∃ v, v.cores = s.cores ∧ v.sprog = u.sprog ∧ RomFails t 2 v u) ∧
            (b.check = crc32cOf image →
              (s.lc.stateOut ≠ 2 ∨ peekSpan s .normal 0xF0000060 32 = .ok (sha256Of image) → enters u) ∧
              (s.lc.stateOut = 2 → peekSpan s .normal 0xF0000060 32 ≠ .ok (sha256Of image) →
                ∃ v, v.cores = s.cores ∧ v.sprog = u.sprog ∧ RomFails t 3 v u)))))

/-- The fence of R285 on a core with a REASON: the core is fenced, its buffered stores are discarded, none of its threads has a
word in flight or a leash, what they asked of the fabric and it has not taken is withdrawn (log entry 53), OWNER_RESET of the core is to
be signalled, and the machine check is recorded, or MORE where one stood
unread. No other core, no other core's thread and no memory changes. -/
structure Sys2Proof.Fenced (c : CoreId) (reason : BitVec 4) (s u : State) : Prop where
  fence : (u.cor c).fenced = true ∧ (u.cor c).sb = [] ∧ (u.cor c).switching = false
  others : ∀ d, d ≠ c → u.cor d = s.cor d
  threads : ∀ t : ThreadId, t.core = c → (u.thr t).pend = .none ∧ (u.thr t).leash.on = false ∧ (u.thr t).slot = none
  frame : (∀ t : ThreadId, t.core ≠ c → u.thr t = s.thr t) ∧ u.mem = s.mem ∧ u.sprog = s.sprog
  signal : u.ownq = s.ownq ++ [.core c] ∧ Withdrawn (.core c) s u ∧
    ∀ r ∈ u.fab.out, r.taken = false → ∀ v : ThreadId, v.core = c → r.use ≠ .store v
  fresh : s.tic.mcPend = false → u.tic.mcPend = true ∧ u.tic.mcMore = s.tic.mcMore ∧ u.tic.mcReason = reason ∧
    u.tic.mcCore = BitVec.ofNat 4 c.val
  again : s.tic.mcPend = true → u.tic.mcPend = true ∧ u.tic.mcMore = true ∧ u.tic.mcReason = s.tic.mcReason

/-- R471, R472: a kick by a writer that may, and a write of WDG.CFG, start the count at BARK, or leave the watchdog off where BARK is 0;
a kick by another changes nothing. Each tick takes 1 off the count of a core at Run. At 0 in stage BARK the watchdog raises source 16 + c
and counts to the bite; at 0 in stage BITE, a tick having come since the bark, it fences its core with REASON BITE, or with SCOPE set resets the tile, which samples the pins as every tile reset does. That the bite
carries the pins' levels with it is the model's choice (log entry 56); that a core the profile makes deterministic stands in its switch
with ACT 0 after that reset, and that LEASH_OVR clears, are its readings (log entries 86 and 84). -/
def Sys2Proof.Claims.Watchdogs : Prop :=
  ∀ (ag : Agent) (c : CoreId) (v : Cell) (pins : Pins) (s : State),
    let w := (s.cor c).wdg
    let may := match ag with
      | .whistle => True
      | .thread u => curLevel s u = .M ∨ (curLevel s u = .S ∧ u.core = c)
    let kicked := fun (x : Wdg) => { x with stage := if x.bark = 0 then .off else .bark, count := x.bark }
    (may → exec (.watchdogKick ag c) s = .next (s.modCor c fun k => { k with wdg := kicked k.wdg })) ∧
    (¬may → exec (.watchdogKick ag c) s = .next s) ∧
    exec (.watchdogConfigure c v) s = .next (s.modCor c fun k =>
      { k with wdg := kicked { k.wdg with bark := v.extractLsb' 24 24, bite := v.extractLsb' 0 24 } }) ∧
    (w.stage = .bark → w.count = 0 → exec (.watchdogBark c) s = .next (raiseSrc (16 + c.val) (s.modCor c fun k =>
      { k with wdg := { k.wdg with stage := .bite, count := k.wdg.bite, ticked := false } }))) ∧
    (s.boot = .run → s.frozen = false → s.pwr.rest = .run → 46875 ≤ s.tk.aonAcc + 64 → (∀ (u : ThreadId) (n : Nat), (s.thr u).pend ≠ .flush n) →
      (s.cor c).enabled = true → (s.cor c).rest = .run → w.stage ≠ .off →
      ∃ u, exec .timeKeeperCycle s = .next u ∧ (u.cor c).wdg = { w with count := w.count - (if w.count = 0 then 0 else 1), ticked := true }) ∧
    (w.count ≠ 0 ∨ (w.stage = .bite ∧ w.ticked = false) → exec (.watchdogBite c pins) s = .next s) ∧
    (w.count ≠ 0 → exec (.watchdogBark c) s = .next s) ∧
    (w.stage = .bite → w.count = 0 → w.ticked = true →
      (w.scope = false → s.fetch.items = [] → ∃ u, exec (.watchdogBite c pins) s = .next u ∧ Fenced c 2 s u) ∧
      (w.scope = true → s.resetHeld = false → ∃ u, exec (.watchdogBite c pins) s = .next u ∧
        FreshTile 2 (resetRecord 2 2 c.val) false pins s u))

/-- R388: an item whose visit has lasted HEEL.CTL.STUCK × 1,024 core cycles fences the core of its thread with REASON HEEL; a visit
that has not, or STUCK at 0, changes nothing. -/
def Sys2Proof.Claims.HeelStuck : Prop :=
  ∀ (t : ThreadId) (it : Item) (s : State), currentItem s t = some it → fetchRuns s = true →
    (s.heel.stuck ≠ 0 → s.heel.stuck.toNat * 1024 ≤ it.visitCyc → s.fetch.items = [it] → it.tag = none → it.bookW = none →
      it.token = none → (∀ v : ThreadId, v ≠ t → (s.thr v).cur = none) →
      ∃ u, exec (.heelStuck t) s = .next u ∧ Fenced t.core 3 s u ∧ (u.thr t).cur = none) ∧
    (s.heel.stuck = 0 ∨ it.visitCyc < s.heel.stuck.toNat * 1024 → exec (.heelStuck t) s = .next s)

/-! ### Run control -/

/-- The tile comes to a halt: HALTING sets with a CAUSE, and every reservation clears. -/
def Sys2Proof.haltState (cause : BitVec 3) (s : State) : State :=
  let d := { s.dbg with halting := true, cause := cause, thread := 0, comp := 0 }
  { (s.mapThreads fun th => { th with resv := none }) with dbg := d }

/-- Comparator i of a core watches a thread for an access of one of the kinds: EN, the thread's bit of THR, and KIND (R467). -/
def Sys2Proof.Watching (k : Core) (t : ThreadId) (kinds : List (BitVec 2)) (i : Nat) : Prop :=
  (k.cmpb.getD i 0).getLsbD 47 = true ∧ (k.cmpb.getD i 0).getLsbD (36 + t.val % 8) = true ∧
    (k.cmpb.getD i 0).extractLsb' 45 2 ∈ kinds

/-- The comparators `m` match a word of a thread: DBG.CSTAT records them. Where one of them has ACT HALT and a debugger is attached the
tile halts with CAUSE 2, every reservation clears, and the release is to set the thread's SKIP; else the thread takes the breakpoint
exception (R459, R460, R462, R467). -/
def Sys2Proof.matched (t : ThreadId) (m : BitVec 8) (s : State) : State :=
  let noted := s.modCor t.core fun k => { k with csValid := true, csHit := m }
  if s.dbg.attached && (List.range 8).any fun i => m.getLsbD i && ((s.cor t.core).cmpb.getD i 0).getLsbD 44 then
    let d := { s.dbg with
      halting := true, cause := 2, thread := BitVec.ofNat 7 t.val
      comp := BitVec.ofNat 3 (((List.range 8).find? fun i => m.getLsbD i).getD 0)
      cmpThreads := t :: s.dbg.cmpThreads.erase t }
    { (noted.mapThreads fun th => { th with resv := none }) with dbg := d }
  else raiseExc t { cause := 0x0F, sub := 0, addr := 0 } noted

/-- R115, R459, R460, R467: BKPT on a core whose BRKHALT is 1, with a debugger attached, halts the tile with CAUSE 1. With SKIP 0, a
comparator matches a word of its core's watched threads by its masked address: one of KIND PC every word that comes to retirement, a
squashed one too, one of the others an access that touches a byte it names. A word that any matches does not retire: DBG.CSTAT records
them, and the tile halts with CAUSE 2 or the thread takes the breakpoint exception; here for squashed words, LIT, and every load and
store. That HALT goes before EXC and COMP is the lowest of all that matched is the model's choice (log entry 109). -/
def Sys2Proof.Claims.HaltingWords : Prop :=
  ∀ (t : ThreadId) (g : Guard) (op : BitVec 12) (i : Instr) (n : BitVec 10) (s s1 : State),
    let b := beginWord t s
    (Runs t g 0 0 [] s s1 → (s.cor t.core).brkhalt = true → s.dbg.attached = true →
      let d := { s1.dbg with halting := true, cause := 1, thread := BitVec.ofNat 7 t.val, comp := 0 }
      exec (.bkpt t g) s = .next { (s1.mapThreads fun th => { th with resv := none }) with dbg := d }) ∧
    ((s.thr t).skip = true → pcHits s t = 0 ∧ ∀ w ea len, dataHits s t w ea len = 0) ∧
    ((s.thr t).skip = false → (s.thr t).inj = none → ∀ j < 8,
      let lo := (s.cor t.core).cmpa.getD j 0
      let mask := ((s.cor t.core).cmpb.getD j 0).extractLsb' 0 36
      let touched := fun (ea len : Nat) => ∃ x, ea ≤ x ∧ x < ea + len ∧ x &&& mask.toNat = lo.toNat &&& mask.toNat
      ((pcHits s t).getLsbD j = true ↔ Watching (s.cor t.core) t [0] j ∧
        (s.thr t).arch.pc &&& mask.setWidth 20 = lo.setWidth 20 &&& mask.setWidth 20) ∧
      ∀ ea len, ((dataHits s t false ea len).getLsbD j = true ↔ Watching (s.cor t.core) t [1, 3] j ∧ touched ea len) ∧
        ((dataHits s t true ea len).getLsbD j = true ↔ Watching (s.cor t.core) t [2, 3] j ∧ touched ea len)) ∧
    (canIssue s t = true → s.dbg.stepping = false → (s.thr t).inj = none →
      (∃ w, threadFetch b t (s.thr t).arch.pc = (.word w, b)) → pcHits b t ≠ 0 →
      (¬guardHolds t g s → wordThread i = some t → encodeParts i = some (g, op) → isFieldForm i = false →
        (∀ k, wordClass i = some k → helperPresent s k = true) → exec i s = .next (matched t (pcHits b t) b)) ∧
      (guardHolds t g s → (s.stk t (curLevel s t) false).fits (curDepth s t false + 1) = true →
        exec (.lit t g n) s = .next (matched t (pcHits b t) b))) ∧
    ∀ (form : AddrForm) (cells vs : List PCell) (r : Region),
      (Clean cells → ∀ x ∈ loadWords t g form,
        Runs t g (formCells form) ((if x.2.1 = 12 then 2 else 1) + (if formUpdates form then 1 else 0)) cells s s1 →
        let ea := effAddr form x.2.1 cells
        let m := dataHits s1 t false ea.toNat x.2.1
        checkAccess s1 t (accLevel s1 t) .load ea x.2.1 0 = .ok r → m ≠ 0 → exec x.1 s = .next (matched t m s1)) ∧
      (Clean (cells ++ vs) → ∀ x ∈ storeWords t g form, cells.length = formCells form → vs.length = (if x.2 = 12 then 2 else 1) →
        Runs t g (formCells form + (if x.2 = 12 then 2 else 1)) (if formUpdates form then 1 else 0) (cells ++ vs) s s1 →
        let ea := effAddr form x.2 (cells ++ vs)
        let m := dataHits s1 t true ea.toNat x.2
        checkAccess s1 t (accLevel s1 t) .store ea x.2 (vs.headD (PCell.of 0)).val = .ok r → m ≠ 0 →
        exec x.1 s = .next (matched t m s1))

/-- R458 to R460, R462: DBG.CTL.HALT requests a halt only for an attached debugger in a tile that is not halted: HALTING sets with CAUSE 0
and every reservation clears; written while the tile stands halted, a step that runs included, it does nothing. The halt is complete
when no block instruction is in flight: HALTED sets and the words of the threads stay as they stand. RESUME in the meantime waits for
it. DETACH clears ATTACHED and RSTHALT. That DETACH leaves a halt standing (log entry 63), and that an emulated rest level becomes a real
one at it (log entry 95), is the model's choice, and so is that the end of the halt that follows a step tells that the semaphore unit has
stalled the stepped CAS6 (R464; log entry 102). -/
def Sys2Proof.Claims.HaltAndRelease : Prop :=
  ∀ s : State,
    (s.dbg.attached = true → s.frozen = false → s.dbg.stepping = false → exec .debugHalt s = .next (haltState 0 s)) ∧
    (s.dbg.attached = false ∨ s.dbg.halted = true ∨ (s.dbg.halting = true ∧ s.dbg.stepping = false) → exec .debugHalt s = .next s) ∧
    (s.dbg.halting = true → s.dbg.resumeWait = false → (∀ (u : ThreadId) (b : BlockState), (s.thr u).pend ≠ .block b) →
      (∀ (u : ThreadId) (r : RomStage), (s.thr u).pend ≠ .rom r) →
      exec .haltComplete s = .next { s with dbg := { s.dbg with halting := false, halted := true } }) ∧
    (s.dbg.halting = true → s.dbg.halted = false →
      exec .debugResume s = .next { s with dbg := { s.dbg with resumeWait := true } }) ∧
    (s.frozen = false → exec .debugResume s = .next s ∧ exec .haltComplete s = .next s) ∧
    (∀ (t : ThreadId) (ea : BitVec 36) (n : Option Nat), s.dbg.halting = false → s.dbg.halted = true → s.dbg.stepping = true →
      s.dbg.selWait = none → s.dbg.sel = BitVec.ofNat 7 t.val → (s.thr t).pend = .cas6 ea (.taken n true) →
      ∃ u, exec .haltComplete s = .next u ∧ u.dbg.stepping = false ∧ u.dbg.stepst = 3 ∧ u.dbg.cause = 4 ∧ u.dbg.selReady = false ∧
        u.dbg.halted = true ∧ (u.thr t).pend = .cas6 ea (.taken n true) ∧ (u.thr t).arch = (s.thr t).arch) ∧
    exec .debugDetach s = .next { s with dbg := { s.dbg with attached := false, rsthalt := false } }

/-- R402, R462, R473: a release of a halted tile with no word parked, no answer held and no boot held back clears HALTED and READY, gives
each running watchdog at least WDG.GRACE, and sets SKIP of every thread that a comparator halted; a helper request that the halt froze in
its queue takes an instance that is idle. That READY clears is the model's reading (log entry 63). -/
def Sys2Proof.Claims.Resume : Prop :=
  ∀ (a : ThreadId) (s : State), s.dbg.halted = true → s.held = [] → s.dbg.romDue = [] → (∀ u : ThreadId, parkCode (s.thr u).pend = 0) →
    (∀ (u : ThreadId) (q : CustReq), (s.thr u).pend ≠ .cust q .waiting) →
    ∃ u, exec .debugResume s = .next u ∧ u.dbg.halted = false ∧ u.dbg.halting = false ∧ u.dbg.selReady = false ∧
      u.dbg.stepping = false ∧ u.dbg.cmpThreads = [] ∧ u.dbg.attached = s.dbg.attached ∧ u.mem = s.mem ∧ u.tic = s.tic ∧
      (∀ c : CoreId, let w := (s.cor c).wdg
        (u.cor c).wdg = { w with count := if w.stage ≠ .off ∧ w.count < s.grace then s.grace else w.count }) ∧
      (∀ t : ThreadId, u.thr t =
        { s.thr t with skip := (s.thr t).skip || decide (BitVec.ofNat 7 t.val ∈ s.dbg.cmpThreads) }) ∧
      (s.help.detres = false → s.help.reqs = [{ thread := a, cls := 0, inst := none }] →
        u.help.reqs = [{ thread := a, cls := 0, inst := some 0 }])

/-- R402, R463, R464, R466: in a halted tile with no step running, DBG.SEL names a thread and brings it to an instruction boundary with
READY, or with REFUSED where it is not enabled or is parked in CAS6, its read stalled; a helper word that it discards lets no other
request go on in the halt. In a tile that is not halted it only names the thread. A write of THR.DPC.PC
discards the word in flight, sets the PC and SKIP, and nothing else; not halted, nothing changes. That such a write also withdraws a CAS6
is the model's choice (log entry 97). -/
def Sys2Proof.Claims.SelectAndDpc : Prop :=
  ∀ (t : ThreadId) (pc : WAddr) (ea : BitVec 36) (left : Option Nat) (s : State),
    let named := { s.dbg with sel := BitVec.ofNat 7 t.val, selWait := none, injWait := none }
    (s.dbg.halted = true → s.dbg.stepping = false →
      ((s.thr t).en = false ∨ (s.thr t).pend = .cas6 ea (.taken left true) →
        exec (.debugSelect t) s = .next { s with dbg := { named with selReady := false, selRefused := true } }) ∧
      ((s.thr t).en = true → (s.thr t).pend = .none → (s.thr t).inj = none → (s.thr t).robPar = false →
        (s.thr t).oldPreds = [] → exec (.debugSelect t) s = .next { s with dbg := { named with selReady := true, selRefused := false } }) ∧
      ((s.thr t).en = true → (∀ e n, (s.thr t).pend ≠ .cas6 e (.taken n true)) → ∃ u, exec (.debugSelect t) s = .next u ∧
        (u.thr t).pend = .none ∧ u.dbg.selReady = true ∧ (u.thr t).arch = (s.thr t).arch ∧ u.mem = s.mem ∧
        (∀ k ops, (s.thr t).pend = .helper k ops →
          u.help.reqs = s.help.reqs.filter (fun r => decide (r.thread ≠ t)) ∧
          u.help.seqPend = s.help.seqPend.filter fun p => decide (p.thread ≠ t)))) ∧
    (s.dbg.halted = false → exec (.debugSelect t) s = .next { s with dbg := { s.dbg with sel := BitVec.ofNat 7 t.val } } ∧
      exec (.dpcWrite t pc) s = .next s) ∧
    (s.dbg.halted = true → ∃ u, exec (.dpcWrite t pc) s = .next u ∧
      (u.thr t).arch = { (s.thr t).arch with pc := pc } ∧ (u.thr t).pend = .none ∧ (u.thr t).skip = true ∧ (u.thr t).oldPreds = [] ∧
      (∀ v, v ≠ t → u.thr v = s.thr v) ∧ u.mem = s.mem ∧ u.cores = s.cores ∧ u.tic = s.tic)

/-- R464, R465, R107: STEP on a READY thread that may issue runs the thread's next word and halts again with CAUSE 4 and outcome 1; here a
LIT. Where READY is 0 the outcome is 4 and nothing runs. INJECT runs a word on the selected thread with PC and SKIP unchanged and sets
DONE; a word that R465 names is refused. Here a LIT, which pushes its value, and a PSET on any predicate but p0, which pops x and sets
the predicate where x is not 0, are injected; and a FENCE, which with a store still to be accepted waits for it, the tile halted all
the while (log entry 63). On a deterministic core with a store of the thread still to drain, the step and every injected word wait for
the drain (R118). An injected MOVE, FILL or CSUM that a fabric error ends has no effect: its operands stand, DBG.ISTAT and DBG.IADDR tell
the exception, and a byte that one of its steps wrote goes back. The model's choices and readings: no comparator meets an injected word
(log entry 9), a mode switch holds back no step (115), DONE stays 0 for a word that is refused or waits (63), and only what the tile
wrote itself is undone (139). -/
def Sys2Proof.Claims.StepAndInject : Prop :=
  ∀ (t : ThreadId) (n : BitVec 10) (k : BitVec 2) (x : PCell) (ml : Bool) (w : PWord) (s s1 : State),
    let fresh := { s with dbg := { s.dbg with istDone := false, istExc := false, istRefused := false } }
    let mine := fresh.modThr t fun th => { th with inj := some ml }
    let run := { s with dbg := { s.dbg with stepping := true } }
    let ended := fun (u : State) => u.dbg.istDone = true ∧ u.dbg.istExc = false ∧ u.dbg.istRefused = false ∧
      u.dbg.halted = true ∧ (u.thr t).arch.pc = (s.thr t).arch.pc ∧ (u.thr t).inj = none ∧ (u.thr t).pend = .none ∧
      (u.thr t).skip = (s.thr t).skip
    (s.dbg.halted = true → s.dbg.selReady = true → s.dbg.stepping = false → s.dbg.sel = BitVec.ofNat 7 t.val →
      s.dbg.selWait = none → s.dbg.injWait = none → (s.thr t).inj = none →
      ((s.thr t).stopped = false → (s.cor t.core).fenced = false → (s.cor t.core).mapPar = false → (s.thr t).robPar = false →
        (s.thr t).chainAt = none → drainsFirst s t = false →
        (fetchWord run t.core (s.thr t).arch.pc).1 = .word (0#2 ++ 0#2 ++ n) →
        fetchWord (beginWord t run) t.core (s.thr t).arch.pc = (.word (0#2 ++ 0#2 ++ n), beginWord t run) →
        pcHits (beginWord t run) t = 0 → (s.stk t (curLevel s t) false).fits (curDepth s t false + 1) = true →
        ∃ u, exec .debugStep s = .next u ∧ u.dbg.stepping = false ∧ u.dbg.stepst = 1 ∧ u.dbg.cause = 4 ∧ u.dbg.halted = true ∧
          (u.thr t).arch.pc = (s.thr t).arch.pc + 1 ∧ (u.thr t).skip = false) ∧
      (injectRefused w = true → exec (.debugInject ml w) s =
        .next { fresh with dbg := { fresh.dbg with istRefused := true } }) ∧
      (drainsFirst s t = true →
        ((s.thr t).stopped = false → (s.cor t.core).fenced = false → (s.cor t.core).mapPar = false → exec .debugStep s = .next run) ∧
        (injectRefused w = false → exec (.debugInject ml w) s =
          .next { fresh with dbg := { fresh.dbg with injWait := some (ml, w) } })) ∧
      (drainsFirst s t = false → (s.stk t (curLevel s t) false).fits (curDepth s t false + 1) = true →
        ∃ u, exec (.debugInject ml (0#2 ++ 0#2 ++ n)) s = .next u ∧ ended u ∧
          u.stk t (curLevel s t) false =
            (curReplace t false 0 [{ PCell.of (BitVec.ofInt 48 n.toInt) with isK := true }] mine).stk t (curLevel s t) false) ∧
      (k ≠ 0 → (s.thr t).predMet = false → drainsFirst s t = false → 1 ≤ curDepth s t false → ensureCur t false 1 mine = some s1 → curTop s1 t false 1 = [x] → Clean [x] →
        ∃ u, exec (.debugInject ml (0#2 ++ 0x230#10 ++ k)) s = .next u ∧ ended u ∧
          (u.thr t).arch.pred k = decide (x.val ≠ 0) ∧ (∀ j, j ≠ k → (u.thr t).arch.pred j = (s.thr t).arch.pred j) ∧
          u.stk t (curLevel s t) false = (curReplace t false 1 [] s1).stk t (curLevel s t) false) ∧
      ((s.thr t).pend = .none → storesOf s t ≠ [] → exec (.debugInject ml 0xB24#14) s =
        .next { fresh with dbg := { fresh.dbg with injWait := some (ml, 0xB24#14) } })) ∧
    (s.dbg.stepping = false → (s.dbg.halted && s.dbg.selReady) = false → s.dbg.injWait = none → (∀ v, (s.thr v).inj = none) →
      exec .debugStep s = .next { s with dbg := { s.dbg with stepst := 4 } } ∧
      exec (.debugInject ml w) s = .next { s with dbg := { s.dbg with istDone := false } }) ∧
    (∀ (b : BlockState) (q : FabReq) (data : BitVec 384) (st : BitVec 2), s.dbg.halted = true → s.dbg.stepping = false →
      s.dbg.injWait = none → (s.thr t).inj = some ml → (s.thr t).pend = .block b → (s.thr t).robPar = false →
      3 ≤ (s.stk t (curLevel s t) false).res.length → (∀ v, v ≠ t → ∀ c r, (s.thr v).pend ≠ .block c ∧ (s.thr v).pend ≠ .rom r) →
      findReq s q.tag = some q → q.use = .block t → st ≠ 0 →
      ∃ u, exec (.fabResponse q.tag data st) s = .next u ∧ (u.thr t).arch = (s.thr t).arch ∧ (u.thr t).pend = .none ∧
        (u.thr t).inj = none ∧ u.dbg.istDone = true ∧ u.dbg.istExc = true ∧ u.dbg.istCause = 3 ∧ u.dbg.istSub = 4 ∧
        u.dbg.iaddr = BitVec.ofNat 36 (0x20000000 + q.addr.toNat) ∧
        (s.dbg.injUndo = [] → u.mem = s.mem ∧ u.cores = s.cores) ∧
        (∀ (a : Nat) (old now : StoredByte), memoryWf s = true → s.dbg.injUndo =
            [{ bytes := [{ addr := a, mem := old, buf := none, line := none, now := now }], edits := none, fills := [], resv := [] }] →
          (∀ x, x ≠ a → smGet 0 u.mem x = smGet 0 s.mem x) ∧
          smGet 0 u.mem a = if smGet 0 s.mem a = now then old else smGet 0 s.mem a))

/-! ### The Whistle port -/

/-- A frame of a command passes the five tests of R454: the port decodes it, its CRC and its format are right, no operation is
pending, and the life-cycle state lets it through. -/
structure Sys2Proof.Accepted (cmd : BitVec 4) (fr : Frame) (s : State) : Prop where
  listens : whiListens s = true
  crc : fr.crc = frameCrc cmd fr
  format : formatOk cmd fr = true
  free : s.whi.op = none
  allowed : whistleOpen s = true ∨ cmd ∈ [0#4, 5#4, 8#4]

/-- A command is answered with a status and data, which POLL repeats. -/
def Sys2Proof.answered (cmd st : BitVec 4) (v : Cell) (s : State) : State :=
  let r : WhiResult := { status := st, data := v, cmd := cmd }
  { s with
    whi := { s.whi with last := r }
    ports := { s.ports with whistle := some r, presence := false } }

/-- A command is answered WAIT, with its operation pending. -/
def Sys2Proof.waiting (op : WhiOp) (s : State) : State :=
  let r : WhiResult := { status := 1, data := 0, cmd := op.cmd }
  { s with
    whi := { s.whi with op := some op }
    ports := { s.ports with whistle := some r, presence := false } }

/-- R452, R454, R469: an accepted IDENT answers TILE.IDENT; ADDR sets the link address; POLL repeats the last result; TERMW fills DBG.RXD and
raises source 40 + c, or answers FULL; TERMR delivers DBG.TXD, or answers EMPTY. -/
def Sys2Proof.Claims.WhistleCommands : Prop :=
  ∀ (fr : Frame) (c : CoreId) (s : State), fr.arg = BitVec.ofNat 4 c.val →
    (Accepted 0 fr s → exec (.ident fr) s = .next (answered 0 0 (tilePeekLow s 0) s)) ∧
    (Accepted 1 fr s → exec (.addrCmd fr) s =
      .next (answered 1 0 0 { s with whi := { s.whi with link := fr.data.extractLsb' 0 36 } })) ∧
    (Accepted 5 fr s → exec (.poll fr) s = .next { s with ports := { s.ports with
      whistle := some { s.whi.last with cmd := 5 }
      presence := false } }) ∧
    (Accepted 6 fr s →
      ((s.cor c).rxfull = false → exec (.termw fr) s =
        .next (answered 6 0 0 (raiseSrc (40 + c.val) (s.modCor c fun k => { k with rxd := fr.data, rxfull := true })))) ∧
      ((s.cor c).rxfull = true → exec (.termw fr) s = .next (answered 6 10 0 s))) ∧
    (Accepted 7 fr s →
      ((s.cor c).txfull = true → exec (.termr fr) s =
        .next (answered 7 0 (s.cor c).txd (s.modCor c fun k => { k with txfull := false }))) ∧
      ((s.cor c).txfull = false → exec (.termr fr) s = .next (answered 7 11 0 s)))

/-- R452, R455, R456, R320: an accepted RD at its address, and RDI at the link address, of storage of the tile answers the bytes, with
corrected data and nothing counted, or DATAERR with the lane masks, and moves the link address past them; of a register it answers its
value; of host memory it offers the fabric a request and answers WAIT; an access that a check of R455 stops answers that status and
touches nothing. That every access of host memory is answered WAIT first, and that a REFUSED one counts as one that reached its target,
are the model's readings (log entry 47), and so is that an access of host memory is held while an OWNER_RESET of a scope with thread 0
is not acknowledged (log entry 53). -/
def Sys2Proof.Claims.WhistleReads : Prop :=
  ∀ (cmd : BitVec 4) (fr : Frame) (a : BitVec 36) (r : Region) (x : RegRef) (tag : BitVec 8) (st : BitVec 4) (s : State),
    (cmd = 2 ∧ a = fr.data.extractLsb' 0 36 ∨ cmd = 3 ∧ a = s.whi.link) → Accepted cmd fr s →
    let run := if cmd = 2 then exec (.rd fr) s else exec (.rdi fr) s
    let n := fr.arg.toNat
    let check := whiCheck s false a.toNat n
    let moved := { s with whi := { s.whi with link := a + BitVec.ofNat 36 n } }
    (check = .ok r → r ∉ [Region.host, .reg] → run = .next (answered cmd (peekResult s a.toNat n).1 (peekResult s a.toNat n).2 moved)) ∧
    (check = .ok .reg → regAt none a.toNat = some x → run = .next (answered cmd 0 (regPeek s x) moved)) ∧
    (check = .ok .host → ownerHeld s 0 = false → freeTag s.fab = some tag → ∃ u q, run = .next u ∧
      u = { waiting { cmd := cmd, next := a + BitVec.ofNat 36 n, ask := none, result := none } s with
        fab := { s.fab with out := s.fab.out ++ [q] } } ∧ q.taken = false ∧
      q.tag = tag ∧ q.we = false ∧ q.addr = BitVec.ofNat 28 (a.toNat - 0x20000000) ∧ q.len = n ∧ q.peek = true ∧ q.use = .whistle ∧
      q.owner = s.node ++ 0#7) ∧
    (check = .error st → (st ∈ [4#4, 5#4] → run = .next (answered cmd st 0 s)) ∧ (st = 6 → run = .next (answered cmd 6 0 moved)))

/-- R452, R455, R321, R322: an accepted WR at the link address writes the low bytes of its data to storage of the tile with fresh codes and
touches no other stored byte, stores to a register with M's rights, and moves the link address; to the keep store it starts the
cell writes and answers WAIT; an access that a check stops touches nothing, and one of the life cycle's area, below 0x0_F000_0C00, is
REFUSED whatever its alignment. A store to a register in the first cycle of a reset that covers it, of a thread, a core or the tile, is discarded (R504);
that an operand of the command says so is the model's choice (log entry 103). That every write of the keep store is answered WAIT first,
and that a REFUSED write counts as one that reached its target, are its readings (log entry 47). -/
def Sys2Proof.Claims.WhistleWrites : Prop :=
  ∀ (fr : Frame) (r : Region) (x : RegRef) (st : BitVec 4) (s : State), Accepted 4 fr s →
    let a := s.whi.link.toNat
    let n := fr.arg.toNat
    let check := whiCheck s true a n
    let next := s.whi.link + BitVec.ofNat 36 n
    (check = .ok r → r ∉ [Region.host, .reg, .keep] → (∀ c, (s.cor c).borrow.active = false) → ∃ u, exec (.wr fr) s = .next u ∧
      (∀ j < n, smGet 0 u.mem (a + j) = encByte (BitVec.ofNat 8 (fr.data.toNat >>> (8 * (n - 1 - j))))) ∧
      (∀ b, b < a ∨ a + n ≤ b → smGet 0 u.mem b = smGet 0 s.mem b) ∧
      u.whi.link = next ∧ u.ports.whistle = some { status := 0, data := 0, cmd := 4 } ∧ u.cores = s.cores) ∧
    (check = .ok .reg → regAt none a = some x → (regStore .whistle .M x fr.data s).whi.op = none →
      ∃ u, exec (.wr fr) s = .next u ∧ u = answered 4 0 0 { regStore .whistle .M x fr.data s with
        whi := { (regStore .whistle .M x fr.data s).whi with link := next } }) ∧
    (check = .ok .reg → regAt none a = some x → ResetUnderWay x s →
      exec (.wr fr true) s = .next (answered 4 0 0 { s with whi := { s.whi with link := next } })) ∧
    (check = .ok .keep → exec (.wr fr) s = .next
      (keepStart .whistle a (natBytes n fr.data.toNat) (waiting { cmd := 4, next := next, ask := none, result := none } s))) ∧
    (check = .error st → st ∈ [4#4, 5#4] → exec (.wr fr) s = .next (answered 4 st 0 s)) ∧
    (check = .error 6 → exec (.wr fr) s = .next (answered 4 6 0 { s with whi := { s.whi with link := next } })) ∧
    (spanRegion none a n = some .keep → a < 0xF0000C00 → check = .error 6)

/-- R449, R450, R454, R488: a frame whose CRC fails is answered CRCERR and nothing is done; one of a wrong format, a CMD of 0x9 or more among them, BADCMD; while an operation
is pending every command but IDENT and POLL answers BUSY; in SEALED and SCRAP without the unlock, every command but IDENT, POLL and AUTH
answers LOCKED. A frame that breaks off, or meets a framing error, is dropped. That the row
IDENT brings a frame of such a CMD is the model's choice (log entry 87). -/
def Sys2Proof.Claims.WhistleRefusals : Prop :=
  ∀ (fr : Frame) (s : State),
    let said := fun (cmd st : BitVec 4) (u : State) => u.ports.whistle = some { status := st, data := 0, cmd := cmd } ∧
      u.mem = s.mem ∧ u.cores = s.cores ∧ u.threads = s.threads ∧ u.whi.link = s.whi.link ∧ u.whi.op = s.whi.op
    let cmds : List (BitVec 4 × Instr) :=
      [(1, .addrCmd fr), (2, .rd fr), (3, .rdi fr), (4, .wr fr), (6, .termw fr), (7, .termr fr)]
    exec .frameTimeout s = .next s ∧ exec .framingError s = .next s ∧
    (whiListens s = true → ∀ x ∈ cmds,
      (fr.crc ≠ frameCrc x.1 fr → ∃ u, exec x.2 s = .next u ∧ said x.1 9 u ∧ u.whi = s.whi) ∧
      (fr.crc = frameCrc x.1 fr → formatOk x.1 fr = false → ∃ u, exec x.2 s = .next u ∧ said x.1 8 u) ∧
      (fr.crc = frameCrc x.1 fr → formatOk x.1 fr = true → s.whi.op.isSome = true →
        ∃ u, exec x.2 s = .next u ∧ said x.1 12 u ∧ u.whi = s.whi) ∧
      (fr.crc = frameCrc x.1 fr → formatOk x.1 fr = true → s.whi.op = none →
        (s.lc.stateOut = 4 ∨ s.lc.stateOut = 2 ∧ s.lc.unlocked = false) → ∃ u, exec x.2 s = .next u ∧ said x.1 7 u)) ∧
    (whiListens s = true → ∀ cmd : BitVec 4, 9 ≤ cmd.toNat → fr.crc = frameCrc cmd fr →
      ∃ u, exec (.ident fr cmd) s = .next u ∧ said cmd 8 u)

/-- R452, R454: a pending operation whose result is known ends: POLL then repeats the result, and the link address moves if the access reached its
target. One that still has to be sent is sent when a tag is free and no OWNER_RESET of a scope with thread 0, whose owner ID it
carries (R320), awaits its acknowledgement: that R480's hold of a scope's threads holds this request too is the model's reading (log
entry 53), and that such an operation was answered WAIT is another (log entry 47). -/
def Sys2Proof.Claims.WhistleOperationEnd : Prop :=
  ∀ (op : WhiOp) (r : WhiResult) (s : State), s.whi.op = some op →
    (op.result = some r → op.cmd ≠ 8 → exec .whistleOperationEnd s = .next { s with whi := { s.whi with
      link := if r.status ∈ [0#4, 2#4, 3#4, 6#4] then op.next else s.whi.link
      op := none
      last := r } }) ∧
    (op.result = none → op.ask = none → exec .whistleOperationEnd s = .next s) ∧
    (∀ q, op.result = none → op.ask = some q → ownerHeld s 0 = true ∨ freeTag s.fab = none → exec .whistleOperationEnd s = .next s) ∧
    (∀ q tag, op.result = none → op.ask = some q → ownerHeld s 0 = false → freeTag s.fab = some tag → ∃ u, exec .whistleOperationEnd s = .next u ∧
      u.whi.op = some { op with ask := none } ∧ u.fab.out.length = s.fab.out.length + 1)

/-- R448, R450, R458, R488: a break clears the link address, attaches the debugger, and is answered with a presence pulse, in a tile that rests
after the wake it starts, and after the boot where a reset is held; that a tile whose rest level is only emulated answers at once is the
model's choice (log entry 132). An operation it meets loses its result. A low of 19.53 µs or more resets the tile with SRC 1, with every
thread at the reset entry, unless the life-cycle state forbids it or the tile is Off: then it is a break. A tile that a pin holds in
reset stays so, and the low is no break. For Off and for the held tile that is the model's reading (log entry 50). That a deterministic core stands in its switch with ACT 0 after that reset, and that
LEASH_OVR clears, are its readings too (log entries 86 and 84). -/
def Obligations.WhistleLows : Prop :=
  ∀ (ns : Nat) (pins : Pins) (s : State),
    (∃ u, exec .whistleBreak s = .next u ∧ u.whi.link = 0 ∧ u.whi.op = none ∧ u.dbg.attached = true ∧
      u.whi.presenceDue = !(decide (s.pwr.rest = .run) || s.emulates) ∧ u.ports.presence = (!u.whi.presenceDue && !s.resetHeld) ∧
      (u.whi.presenceDue = true → s.pwr.rest ≠ .off → u.pwr.waking = true) ∧ u.pwr.rest = s.pwr.rest ∧ u.threads = s.threads ∧ u.cores = s.cores) ∧
    (19530 ≤ ns → (s.lc.stateOut ≠ 2 ∨ s.lc.unlocked = true) → s.pwr.rest ≠ .off → s.resetHeld = false →
      ∃ u, exec (.whistleReset ns pins) s = .next u ∧ FreshTile 2 (resetRecord 2 1 0) false pins s u ∧
        (s.ks.todo = [] → u.mem = s.mem) ∧
        u.whi.link = s.whi.link ∧ u.dbg.attached = s.dbg.attached) ∧
    (19530 ≤ ns → (s.lc.stateOut ≠ 2 ∨ s.lc.unlocked = true) → s.resetHeld = true →
      ∃ u, exec (.whistleReset ns pins) s = .next u ∧ u = { s with freeCtr := u.freeCtr }) ∧
    (19530 ≤ ns → (s.lc.stateOut = 2 ∧ s.lc.unlocked = false ∨ (s.pwr.rest = .off ∧ s.resetHeld = false)) →
      ∃ u, exec (.whistleReset ns pins) s = .next u ∧ u.whi.link = 0 ∧ u.dbg.attached = true ∧ u.threads = s.threads)

/-- The keep store's write of a counter of the life cycle's area: cell i of it takes a value (R489). -/
def Sys2Proof.counterWrite (i : Nat) (v : Cell) : KeepJob :=
  { owner := .lifeCycle, addr := 0xF0000000 + 6 * i, bytes := (cellBytes v).map fun b => some (encByte b) }

/-- R492, R489: in SEALED the steps of AUTH: ARG 0 answers the incremented challenge counter, which it writes to cell 32 of the keep store
and which it answers before that is written, while no failed unlock bars it; ARG 1 answers N_lo; ARG 2 and ARG 3 store R; ARG 4 uses the challenge up and is pending; ARG 5 ends the unlock.
ARG 4's end unlocks on a match, and on a mismatch writes the count of failures to cell 33 and bars ARG 0 for a second. Elsewhere every step answers OK
with data 0, but ARG 4 in SCRAP is REFUSED. When ARG 0 answers, and that the second of the bar is counted in time-keeper cycles and, in
Sleep, in ticks, is the model's reading (log entry 62). -/
def Obligations.Unlock : Prop :=
  ∀ (fr : Frame) (op : WhiOp) (r : WhiResult) (s : State),
    let n := lcCounter s 32 + 1
    let cmd := fun (arg : BitVec 4) => if arg = 0 then Instr.authChallenge fr else if arg = 1 then .authNonce fr
      else if arg = 4 then .authVerify fr else if arg = 5 then .authLock fr else .authStoreResponse fr
    (Accepted 8 fr s → s.lc.stateOut = 2 →
      (fr.arg = 0 → s.lc.blocked = 0 → ∃ u hi lo, exec (.authChallenge fr) s = .next u ∧ IsTime (s.now : Int) hi lo ∧
        u.lc.challenge = some (n, lo) ∧ u.lc.nlo = lo ∧ u.ports.whistle = some { status := 0, data := n, cmd := 8 } ∧
        u.ks = { s.ks with todo := s.ks.todo ++ [counterWrite 32 n] }) ∧
      (fr.arg = 0 → s.lc.blocked ≠ 0 → exec (.authChallenge fr) s = .next (answered 8 6 0 s)) ∧
      (fr.arg = 1 → exec (.authNonce fr) s = .next (answered 8 0 s.lc.nlo s)) ∧
      (fr.arg = 2 → exec (.authStoreResponse fr) s = .next (answered 8 0 0 { s with lc := { s.lc with rhi := fr.data } })) ∧
      (fr.arg = 3 → exec (.authStoreResponse fr) s = .next (answered 8 0 0 { s with lc := { s.lc with rlo := fr.data } })) ∧
      (fr.arg = 4 → s.lc.challenge = none → exec (.authVerify fr) s = .next (answered 8 6 0 s)) ∧
      (fr.arg = 4 → ∀ c, s.lc.challenge = some c →
        let good := decide (authExpected s c = cellBytes s.lc.rhi ++ cellBytes s.lc.rlo)
        ∃ u o, exec (.authVerify fr) s = .next u ∧ u.lc.challenge = none ∧ u.whi.op = some o ∧
          o.result = some { status := if good then 0 else 6, data := 0, cmd := 8 } ∧
          u.ports.whistle = some { status := 1, data := 0, cmd := 8 }) ∧
      (fr.arg = 5 → exec (.authLock fr) s = .next (answered 8 0 0 { s with lc := { s.lc with unlocked := false } }))) ∧
    (Accepted 8 fr s → s.lc.stateOut ≠ 2 → fr.arg.toNat ≤ 5 →
      exec (cmd fr.arg) s = .next (answered 8 (if fr.arg = 4 ∧ s.lc.stateOut = 4 then 6 else 0) 0 s)) ∧
    (s.whi.op = some op → op.result = some r → op.cmd = 8 → ∃ u, exec .whistleOperationEnd s = .next u ∧
      u.whi.op = none ∧ u.whi.last = r ∧
      (r.status = 0 → u.lc.unlocked = true ∧ u.ks = s.ks) ∧
      (r.status ≠ 0 → u.lc.unlocked = s.lc.unlocked ∧ u.lc.blocked = 64 * 1500000000 ∧
        u.ks = { s.ks with todo := s.ks.todo ++ [counterWrite 33 (BitVec.ofNat 48 (min 15 (lcFails s + 1)))] }))

/-- R469, R336, R338, R352, R391: a thread's read of DBG.RXD answers the cell and empties it, and a store to DBG.TXD fills the cell or, while it is
full, sets TXLOST. A read of ECC.CECNT clears that count; a read of ECC.CELOG, ECC.UELOG and HEEL.LOSSLOG removes the oldest entry,
and an empty log changes nothing. -/
def Obligations.TerminalAndLogs : Prop :=
  ∀ (c : CoreId) (v : Cell) (b : Fin 86) (x : EccEntry) (es : List EccEntry) (y : LossEntry) (ls : List LossEntry) (s : State),
    (∃ u, exec (.terminalReceive c) s = .next u ∧ u.ports.rdata = (s.cor c).rxd ∧ (u.cor c).rxfull = false ∧
      u.threads = s.threads ∧ u.mem = s.mem) ∧
    exec (.terminalTransmit c v) s = .next (s.modCor c fun k =>
      if k.txfull then { k with txlost := true } else { k with txd := v, txfull := true }) ∧
    (∃ u, exec (.ceCounterRead b) s = .next u ∧ u.ports.rdata = ((s.ecc.cecnt.getD b.val 0).setWidth 48) ∧
      u.ecc = { s.ecc with cecnt := s.ecc.cecnt.set b.val 0 } ∧ u.threads = s.threads ∧ u.tic = s.tic) ∧
    (s.ecc.celog = x :: es → ∃ u, exec .ceLogRead s = .next u ∧ u.ecc = { s.ecc with celog := es } ∧
      (es = [] → (u.src 1).pend = false) ∧ u.ports.rdata.getLsbD 47 = true ∧ u.ports.rdata.extractLsb' 0 36 = x.addr) ∧
    (s.ecc.uelog = x :: es → ∃ u, exec .ueLogRead s = .next u ∧ u.ecc = { s.ecc with uelog := es } ∧
      u.ports.rdata.getLsbD 47 = true ∧ u.ports.rdata.extractLsb' 0 36 = x.addr) ∧
    (s.heel.losslog = y :: ls → ∃ u, exec .lossLogRead s = .next u ∧ u.heel = { s.heel with losslog := ls } ∧
      (ls = [] → (u.src 8).pend = false) ∧ u.ports.rdata.getLsbD 47 = true) ∧
    (s.ecc.celog = [] → exec .ceLogRead s = .next (s.setRdata 0)) ∧ (s.ecc.uelog = [] → exec .ueLogRead s = .next (s.setRdata 0)) ∧
    (s.heel.losslog = [] → exec .lossLogRead s = .next (s.setRdata 0))

/-! ### The fetch unit and the heel -/

/-- An acceptance port that listens at Run, with no request for a rest level open and the ledgers at β₀ of its cycle. -/
structure Sys2Proof.Offers (s : State) : Prop where
  runs : fetchRuns s = true
  up : s.pwr.rest = .run
  asks : s.pwr.req = none
  beta : s.fetch.beta = s.fetch.cycle / 16

/-- The port's answer: its status, and what a status other than ACCEPT leaves: BUSY sets DECL and raises source 11, REJECT and
ORDER set REFUSE and raise source 12, and nothing else changes. -/
def Sys2Proof.refusedWith (st : BitVec 2) (s : State) : State :=
  let p := { s.ports with idescSt := st, idescStValid := true }
  if st = 1 then raiseSrc 11 { s with ports := p, fetch := { s.fetch with decl := true } }
  else raiseSrc 12 { s with ports := p, fetch := { s.fetch with refuse := true } }

/-- R9, R10, R359, R360, R373, R475: a descriptor for a disabled node, for one of the other kind than its flow's mode, a frame outside the stash, or with IDESC_KIND 0b11 is
REJECTed; one whose sequence is not its ordered flow's next is refused with ORDER, and a free flow takes every sequence; with 3,968 entries in use, or a LEAVING flow, it is BUSY; else, with ADMIT off, it is ACCEPTed: the
item is queued at its node with the descriptor's cells, eligible for a fetch slot 3 core cycles later, its deadline BUDGET after its
arrival, and the flow counts it. That these cycles count from the one in which it is taken (log entry 137), that the deadline's BUDGET is rounded down to a multiple of 2⁻¹⁶ ns (log entry 18), and that the row ITEM_DESCRIPTOR brings that kind (log entry 87) are the
model's readings and choice. -/
def Sys2Proof.Claims.Descriptors : Prop :=
  ∀ (c0 c1 c2 c3 : Cell) (s : State), Offers s →
    let run := exec (.itemDescriptor c0 c1 c2 c3) s
    let n := s.nodeOf (c0.extractLsb' 0 8)
    let flow : BitVec 16 := c0.extractLsb' 32 16
    let seq : BitVec 24 := c0.extractLsb' 8 24
    let f := s.flow flow
    let len := (c1.extractLsb' 21 14).toNat
    let handle := (c1.extractLsb' 0 21).toNat
    let fits := handle + (len + 5) / 6 ≤ 174762
    let arrival := min (timeValue c2 c3) (s.now : Int)
    let taken := fun (f' : Flow) => ∃ u it, run = .next u ∧ u.ports.idescSt = 0 ∧ u.ports.idescStValid = true ∧
      u.fetch.items = s.fetch.items ++ [it] ∧ it.id = s.fetch.nextId ∧ it.flow = flow ∧ it.seq = seq ∧ it.desc0 = c0 ∧ it.desc1 = c1 ∧ it.desc2 = c2 ∧ it.desc3 = c3 ∧
      it.node = c0.extractLsb' 0 8 ∧ it.prio = some (c1.extractLsb' 35 3) ∧ it.place = .queued ∧ it.eligCyc = s.fetch.cycle + 3 ∧ it.visit = 1 ∧
      it.deadline = arrival + n.budget.toNat * 65536 * clkDiv s.profile.clk / 3 ∧ u.flow flow = f' ∧
      u.threads = s.threads ∧ u.mem = s.mem
    (n.en = false ∨ ¬fits → run = .next (refusedWith 2 s)) ∧
    exec (.itemDescriptor c0 c1 c2 c3 3) s = .next (refusedWith 2 s) ∧
    (n.en = true → fits → f.fresh = false → f.free = false → n.ord ≠ .free →
      (seq ≠ f.nexta → run = .next (refusedWith 3 s)) ∧
      (seq = f.nexta → s.fetch.admitOn = false →
        (3968 ≤ qcount s ∨ f.state = .leaving → run = .next (refusedWith 1 s)) ∧
        (qcount s < 3968 → f.state ≠ .leaving → taken { f with
          nexta := seq + 1
          infl := f.infl + 1
          state := if f.state = .idle then .active else f.state }))) ∧
    (n.en = true → fits → f.fresh = false → (f.free = true ↔ n.ord ≠ .free) → run = .next (refusedWith 2 s)) ∧
    (n.en = true → fits → f.fresh = false → f.free = true → n.ord = .free → s.fetch.admitOn = false →
      (3968 ≤ qcount s ∨ f.state = .leaving → run = .next (refusedWith 1 s)) ∧
      (qcount s < 3968 → f.state ≠ .leaving → taken { f with
        infl := f.infl + 1
        state := if f.state = .idle then .active else f.state })) ∧
    (n.en = true → fits → f.fresh = true → n.ord = .free → s.fetch.admitOn = false → qcount s < 3968 → f.state = .idle →
      taken { f with
        fresh := false
        free := true
        infl := f.infl + 1
        state := .active }) ∧
    (n.en = true → fits → f.fresh = true → n.ord ≠ .free → s.fetch.admitOn = false → qcount s < 3968 → f.state = .idle →
      taken { f with
        fresh := false
        free := false
        nextr := seq
        nexta := seq + 1
        infl := f.infl + 1
        state := .active })

/-- R369: a ledger passes with n sixteenths of the time to the end of each slot. -/
def Sys2Proof.ledgerHolds (f : Fetch) (l : List Nat) (n : Nat) : Prop :=
  ∀ j < 32, 16 * ((l.take (j + 1)).sum : Int) ≤ n * (16 * (f.beta + j + 1) - f.cycle : Int)

/-- R368 to R371: with ADMIT on, a descriptor that passes the other checks is admitted on the normal core, among those whose ledger passes
with COST added at the slot of δ1, that holds the least, the lowest number among equals, where the transfer ledger passes with PATHW
added at the slot of δE; both are booked there. Where no core admits it so it takes a token of the lowest deterministic core that has one
free; and else it is BUSY. That a resting core's exit counts with the COST is the model's reading (log entry 40), and so is that an item
with a token books nothing while ADMIT is on, its PATHW included (log entry 42); that with XSHARE 0 an item of PATHW above 0 may still
take a token is its choice (log entry 90). -/
def Sys2Proof.Claims.Admission : Prop :=
  ∀ (c0 c1 c2 c3 : Cell) (s : State), Offers s → s.fetch.admitOn = true →
    let run := exec (.itemDescriptor c0 c1 c2 c3) s
    let n := s.nodeOf (c0.extractLsb' 0 8)
    let f := s.flow (c0.extractLsb' 32 16)
    let x := s.fetch
    n.en = true → (c1.extractLsb' 0 21).toNat + ((c1.extractLsb' 21 14).toNat + 5) / 6 ≤ 174762 →
    (f.fresh = true ∨ (f.free = false ∧ n.ord ≠ .free ∧ c0.extractLsb' 8 24 = f.nexta) ∨ (f.free = true ∧ n.ord = .free)) → qcount s < 3968 → f.state ≠ .leaving →
    let slot := fun (d : Int) => min 31 (d / 16 - x.beta).toNat
    let d1 : Int := x.cycle - lagCycles s (min (timeValue c2 c3) (s.now : Int)) + n.budget.toNat
    let j1 := slot d1
    let jE := slot (d1 + n.pathb.toNat)
    let ledger := fun (c : CoreId) => x.ledgers.getD c.val []
    let added := fun (l : List Nat) (j w : Nat) => l.set j (l.getD j 0 + w)
    let passes := fun (c : CoreId) => coreAllowed s n c = true ∧ normalCore s c = true ∧
      ledgerHolds x (added (ledger c) j1 (n.cost.toNat + exitCycles s c)) (16 - x.xshare.toNat)
    let spare := ledgerHolds x (added x.transfer jE n.pathw.toNat) (x.xshare.toNat * (coreIds.filter (normalCore s)).length) ∧
      (n.pathw = 0 ∨ x.xshare ≠ 0)
    let taken := fun (P : State → Item → Prop) => ∃ u it, run = .next u ∧ u.ports.idescSt = 0 ∧ u.fetch.items = x.items ++ [it] ∧ P u it
    (∀ c, passes c → spare →
      (∀ c', passes c' → (ledger c).sum < (ledger c').sum ∨ ((ledger c).sum = (ledger c').sum ∧ c ≤ c')) →
      taken fun u it => it.firstCore = some c ∧ it.token = none ∧
        it.bookW = some { core := some c, slot := x.beta + j1, amount := n.cost.toNat } ∧
        it.bookP = some { core := none, slot := x.beta + jE, amount := n.pathw.toNat } ∧
        u.fetch.ledgers = x.ledgers.set c.val (added (ledger c) j1 n.cost.toNat) ∧
        u.fetch.transfer = added x.transfer jE n.pathw.toNat) ∧
    ((¬spare ∨ ∀ c, ¬passes c) →
      (∀ c, tokenCore s n = some c → taken fun u it => it.firstCore = some c ∧ it.token = some c ∧ it.bookW = none ∧
        it.bookP = none ∧ u.fetch.ledgers = x.ledgers ∧ u.fetch.transfer = x.transfer) ∧
      (tokenCore s n = none → run = .next (refusedWith 1 s)))

/-- R382, R377: a CANCEL of an ordered flow's next sequence queues a hole for it; one of an item held in the tile marks a current item,
turns a ready one to CANCELLED with its ingress port and without its launch time, whose record may then go out from the cycle in which
the launch time was reached, or else from this one on (R376), and makes a queued one a hole; one that an earlier cancel has reached
stays as it is. A sequence ahead of the flow's next is answered ORDER; one behind it that is not held, one for a FRESH or LEAVING
flow and one with a node number are REJECTed. That a marked current item keeps its bookings and its tag to the visit's end, and that a
queued one's launch time is dropped with it, is the model's choice (log entry 91). -/
def Sys2Proof.Claims.Cancels : Prop :=
  ∀ (c0 c1 c2 c3 : Cell) (it : Item) (s : State), Offers s →
    let run := exec (.cancel c0 c1 c2 c3) s
    let flow : BitVec 16 := c0.extractLsb' 32 16
    let seq : BitVec 24 := c0.extractLsb' 8 24
    let f := s.flow flow
    let becomes := fun (x : Item) => ∃ u, run = .next u ∧ u.ports.idescSt = 0 ∧
      u.fetch.items = s.fetch.items.map (fun y => if y.id = it.id then x else y) ∧ u.mem = s.mem ∧ u.heel = s.heel
    (f.fresh = true ∨ f.state = .leaving ∨ c0.extractLsb' 0 8 ≠ 0 → run = .next (refusedWith 2 s)) ∧
    (c0.extractLsb' 0 8 = 0 → f.fresh = false → f.state ≠ .leaving → f.free = true ∨ seq ≠ f.nexta →
      cancelTarget s flow seq = none →
      (f.free = false → (seq - f.nexta).toNat < 2 ^ 23 → run = .next (refusedWith 3 s)) ∧
      (f.free = true ∨ 2 ^ 23 ≤ (seq - f.nexta).toNat → run = .next (refusedWith 2 s))) ∧
    (c0.extractLsb' 0 8 = 0 → f.fresh = false → f.state ≠ .leaving → f.free = true ∨ seq ≠ f.nexta →
      cancelTarget s flow seq = some it → isCancelled it = true →
      run = .next { s with ports := { s.ports with idescSt := 0, idescStValid := true } }) ∧
    (c0.extractLsb' 0 8 = 0 → f.fresh = false → f.state ≠ .leaving → f.free = false → seq = f.nexta →
      (3968 ≤ qcount s → run = .next (refusedWith 1 s)) ∧
      (qcount s < 3968 → ∃ u x, run = .next u ∧ u.ports.idescSt = 0 ∧ u.fetch.items = s.fetch.items ++ [x] ∧ x.place = .hole ∧
        x.flow = flow ∧ x.seq = seq ∧ x.action = 2 ∧ u.flow flow = { f with
          nexta := seq + 1
          infl := f.infl + 1
          state := if f.state = .idle then .active else f.state })) ∧
    (c0.extractLsb' 0 8 = 0 → f.fresh = false → f.state ≠ .leaving → f.free = true ∨ seq ≠ f.nexta →
      cancelTarget s flow seq = some it → isCancelled it = false → (∀ x ∈ s.fetch.items, x.id = it.id → x = it) →
      (∀ t : ThreadId, it.place = .current t → becomes { it with marked := true }) ∧
      (it.place = .ready → becomes { it with
        action := 2
        port := it.desc1.extractLsb' 38 10
        kept := []
        edits := []
        launch := none
        lifted := if it.launch = none then it.lifted else it.reached.getD s.fetch.cycle }) ∧
      (it.place = .queued → it.bookW = none → it.bookP = none → it.token = none → (∀ x ∈ s.fetch.items, x.tag = none) →
        becomes { it with
          place := .hole
          action := 2
          port := it.desc1.extractLsb' 38 10
          readyCyc := s.fetch.cycle
          kept := []
          edits := []
          launch := none }))

/-- R372, R381, R382: a CANCEL that finds its item queued or in a fetch slot, whatever it has booked, holds or asks for: the slot is emptied,
the bookings leave the ledgers they stand on, a token is given back, the tag passes on and a lodged request ends, and the entry is a hole.
That its launch time is dropped with it is the model's choice (log entry 91). -/
def Sys2Proof.Claims.WaitingCancels : Prop :=
  ∀ (c0 c1 c2 c3 : Cell) (it w : Item) (v : ThreadId) (k : BitVec 32) (d : Dbl) (s : State), Offers s → s.dbg.stepping = false →
    let flow : BitVec 16 := c0.extractLsb' 32 16
    let seq : BitVec 24 := c0.extractLsb' 8 24
    let f := s.flow flow
    let x := s.fetch
    let off := fun (l : List Nat) (b : Booking) => let j := min 31 (b.slot - x.beta); l.set j (l.getD j 0 - b.amount)
    let left := fun (c : Option CoreId) (l : List Nat) => ((it.bookW.toList ++ it.bookP.toList).filter fun b => decide (b.core = c)).foldl off l
    c0.extractLsb' 0 8 = 0 → f.fresh = false → f.state ≠ .leaving → f.free = true ∨ seq ≠ f.nexta →
    cancelTarget s flow seq = some it → isCancelled it = false → (∀ y ∈ x.items, y.id = it.id → y = it) →
    it.place = .queued ∨ (∃ z, it.place = .slot z) → (∀ y ∈ x.items, y.id ≠ it.id → ∀ e, y.tag ≠ some (e, .granted)) →
    ∃ u, exec (.cancel c0 c1 c2 c3) s = .next u ∧ u.ports.idescSt = 0 ∧ u.heel = s.heel ∧
      findItem u it.id = some { it with
        place := .hole
        action := 2
        port := it.desc1.extractLsb' 38 10
        readyCyc := x.cycle
        kept := []
        edits := []
        launch := none
        bookW := none
        bookP := none
        token := none
        tag := none } ∧
      (∀ z, it.place = .slot z → (u.thr z).slot = none) ∧
      u.fetch.transfer = left none x.transfer ∧ (∀ c : CoreId, u.fetch.ledgers.getD c.val [] = left (some c) (x.ledgers.getD c.val [])) ∧
      (it.tag = none → u.mem = s.mem ∧ ∀ y ∈ x.items, y.id ≠ it.id → y ∈ u.fetch.items) ∧
      (∀ st, it.tag = some (k, st) → (∀ y ∈ x.items, y.id ≠ it.id → y.tag ≠ some (k, .held)) → TagPasses k w it v d s u)

/-- R385, R386: an OUT token at an ordered flow's next sequence makes it LEAVING there, and one up to 64 sequences on queues a hole for
each first, BUSY where they do not fit; one further on, or behind, is REJECTed. An IN token takes an IDLE flow over as ARRIVING,
ordered, at its sequence; a DRAINED token with the flow's NEXTR ends ARRIVING. A token with FKIND 0b11, one of any kind with a
reserved bit of cells 1 to 3 set, and one for a flow in another state is REJECTed. That bits [7:0] of cell 0 mean nothing is the model's
choice (log entry 92); what an OUT token of a FRESH or free flow does is left out here (log entry 43). -/
def Sys2Proof.Claims.FenceTokens : Prop :=
  ∀ (c0 c1 c2 c3 : Cell) (s : State), Offers s →
    let flow : BitVec 16 := c0.extractLsb' 32 16
    let sq : BitVec 24 := c0.extractLsb' 8 24
    let f := s.flow flow
    let accepted := fun (x : Flow) => Host.Outcome.next (φ := Fault) (ρ := Refusal)
      (let s1 := s.setFlow flow x
       { s1 with ports := { s1.ports with idescSt := 0, idescStValid := true } })
    (c1 = 0 → f.state ≠ .arriving → f.fresh = false → f.free = false → sq = f.nexta →
      exec (.fenceOut c0 c1 0 0) s = accepted { f with state := .leaving, leaveAt := sq }) ∧
    (c1 = 0 → f.fresh = false → f.free = false → 64 < (sq - f.nexta).toNat → exec (.fenceOut c0 c1 0 0) s = .next (refusedWith 2 s)) ∧
    (c1 = 0 → f.state ≠ .arriving → f.fresh = false → f.free = false → ∀ n, 1 ≤ n → n ≤ 64 → sq = f.nexta + BitVec.ofNat 24 n →
      (3968 < qcount s + n → exec (.fenceOut c0 c1 0 0) s = .next (refusedWith 1 s)) ∧
      (qcount s + n ≤ 3968 → ∃ u hs, exec (.fenceOut c0 c1 0 0) s = .next u ∧ u.ports.idescSt = 0 ∧
        u.fetch.items = s.fetch.items ++ hs ∧ hs.length = n ∧ (∀ x ∈ hs, x.place = .hole ∧ x.flow = flow ∧ x.action = 2) ∧
        u.flow flow = { f with state := .leaving, leaveAt := sq, nexta := sq, infl := f.infl + n })) ∧
    (c1 = 1#2 ++ 0#46 → f.state = .idle →
      exec (.fenceIn c0 c1 0 0) s = accepted { f with state := .arriving, free := false, fresh := false, nexta := sq, nextr := sq }) ∧
    (c1 = 2#2 ++ 0#46 → f.state = .arriving → sq = f.nextr →
      exec (.fenceDrained c0 c1 0 0) s = accepted { f with
        state := if f.infl = 0 then .idle else .active
        drainedCyc := s.fetch.cycle }) ∧
    (c1.extractLsb' 0 46 ≠ 0 ∨ c1.extractLsb' 46 2 = 3 ∨ c2 ≠ 0 ∨ c3 ≠ 0 →
      ∀ i ∈ [Instr.fenceOut c0 c1 c2 c3, .fenceIn c0 c1 c2 c3, .fenceDrained c0 c1 c2 c3], exec i s = .next (refusedWith 2 s)) ∧
    (c1 = 0 → f.state = .arriving → exec (.fenceOut c0 c1 0 0) s = .next (refusedWith 2 s)) ∧
    (c1 = 1#2 ++ 0#46 → f.state ≠ .idle → exec (.fenceIn c0 c1 0 0) s = .next (refusedWith 2 s)) ∧
    (c1 = 2#2 ++ 0#46 → (f.state ≠ .arriving ∨ sq ≠ f.nextr) → exec (.fenceDrained c0 c1 0 0) s = .next (refusedWith 2 s))

/-- R477, R330: a beat of the ingress data port writes the bytes it enables into the stash with fresh codes, byte 0 at the highest end of
the data, and touches no other stored byte. -/
def Sys2Proof.Claims.StashBeats : Prop :=
  ∀ (beat : BitVec 14) (be : BitVec 64) (data : BitVec 512) (s : State), s.boot = .run → uncoreRuns s = true →
    let base := 0x10500000 + 64 * beat.toNat
    ∃ u, exec (.stashBeat beat be data) s = .next u ∧
      (∀ j < 64, be.getLsbD j = true → smGet 0 u.mem (base + j) = encByte (data.extractLsb' (504 - 8 * j) 8)) ∧
      (∀ j < 64, be.getLsbD j = false → smGet 0 u.mem (base + j) = smGet 0 s.mem (base + j)) ∧
      (∀ a, a < base ∨ base + 64 ≤ a → smGet 0 u.mem a = smGet 0 s.mem a) ∧ u.cores = s.cores ∧ u.fetch = s.fetch ∧ u.heel = s.heel

/-- R1, R13, R14, R356, R363, R181 to R184, R364 to R366: the best item that is queued and eligible and that some thread may take goes into
that thread's fetch slot, and without one nothing changes. With 896 items in flight only one in flight, the oldest of its flow or one of
a FREE flow goes, and none for which the heel has no entry of its 1,024; that it waits in its queue until one is free is the model's
choice (log entry 120). An item in the slot of a
thread of the same core that is not parked moves to a thread parked in GETWORK. A thread that waits in GETWORK with its stacks
resident and room on its return stack takes it: the ADDR entry of the word after next is pushed, the item is current, its descriptor
and deadline stand in the thread's registers, and the thread continues at the node's entry. -/
def Sys2Proof.Claims.ItemDispatch : Prop :=
  ∀ (t u' : ThreadId) (it : Item) (d : Dbl) (s : State), fetchRuns s = true → (s.cor t.core).rest = .run →
    (∀ x ∈ s.fetch.items, x.id = it.id → x = it) → it ∈ s.fetch.items →
    let parkedIn := (s.thr t).pend = .getwork d ∧ mayWake s t = true ∧ (s.thr t).robPar = false ∧ pcHits s t = 0 ∧ (s.thr t).inj = none ∧ s.dbg.stepping = false ∧
      2 ≤ (s.stk t (curLevel s t) false).res.length ∧ rsRoom s t 1 = true ∧ residents s t true < 24 ∧
      residents s t false ≤ 16
    let takes := fun (u : State) => Takes t it s u ∧ u.mem = s.mem
    let best := fun (ok : Item → Bool) => bestItem s (s.fetch.items.filter ok) = some it
    ((∀ x ∈ s.fetch.items, x.place = .queued → s.fetch.cycle < x.eligCyc ∨ fillThread s x = none) → exec .slotFill s = .next s) ∧
    (∀ x v, fillThread s x = some v → (s.thr v).slot = none ∧
      (inflight s < 896 ∨ x.taken = true ∨ (s.flow x.flow).free = true ∨ x.seq = (s.flow x.flow).nextr) ∧
      (x.heelEntry = true ∨ (s.fetch.items.filter Item.heelEntry).length < 1024)) ∧
    (best (fun x => decide (x.place = .queued ∧ x.eligCyc ≤ s.fetch.cycle) && (fillThread s x).isSome) → fillThread s it = some t →
      ((s.thr t).pend = .none → exec .slotFill s = .next
        ((modItem s it.id fun x => { x with place := .slot t }).modThr t fun th => { th with slot := some it.id })) ∧
      (parkedIn → ∃ u, exec .slotFill s = .next u ∧ takes u)) ∧
    (parkedIn → (s.thr t).slot = none → it.place = .slot u' → u' ≠ t → best (fun x => match x.place with
        | .slot v => decide (v.core = t.core ∧ v ≠ t) && decide (parkCode (s.thr v).pend = 0) && dispatchable s t x
        | _ => false) →
      ∃ u, exec (.slotMove t) s = .next u ∧ takes u ∧ (u.thr u').slot = none)

/-- R368, R372: when 16 core cycles have passed β₀ grows by 1, and every ledger moves down by a slot: the work it holds up to a slot is what
it held up to the slot above. Before that nothing moves. -/
def Sys2Proof.Claims.LedgerAdvance : Prop :=
  ∀ (l : List Nat) (j : Nat) (s : State), fetchRuns s = true →
    (s.fetch.beta < s.fetch.cycle / 16 → ∃ u, exec .ledgerAdvance s = .next u ∧ u.fetch.beta = s.fetch.beta + 1 ∧
      u.fetch.ledgers = s.fetch.ledgers.map ledgerShift ∧ u.fetch.transfer = ledgerShift s.fetch.transfer ∧
      u.fetch.items = s.fetch.items ∧ u.threads = s.threads) ∧
    (s.fetch.cycle / 16 ≤ s.fetch.beta → exec .ledgerAdvance s = .next s) ∧
    (2 ≤ l.length → ((ledgerShift l).take (j + 1)).sum = (l.take (j + 2)).sum ∧ (ledgerShift l).length = l.length)

/-- R19, R20, R23, R375 to R379, R387, R478: the record of the item that goes first carries its flow, sequence, node, port, action, length,
handle and time; the item leaves the tile and the flow's NEXTR moves on. Only FORWARD sends data, in beats of 64 bytes of which the last is
marked: the bytes of the frame, here all good and unedited. A LEAVING flow that has drained sends its DRAINED record and returns to
FRESH; that it keeps its sequences and its mode then is the model's reading (log entry 43). -/
def Sys2Proof.Claims.RecordFields : Prop :=
  ∀ (it : Item) (flow : BitVec 16) (bytes : List Byte) (s : State), fetchRuns s = true →
    let f := s.flow it.flow
    let n := bytes.length
    let beats : List EgressBeat := (List.range ((n + 63) / 64)).map fun i =>
      { nb := BitVec.ofNat 7 (min 64 (n - 64 * i))
        last := decide (i + 1 = (n + 63) / 64)
        data := (bytes.drop (64 * i)).take 64
        err := List.replicate (min 64 (n - 64 * i)) false }
    let sends := fun (u : State) (data : List EgressBeat) => ∃ r, exec .releaseRecord s = .next u ∧ u.ports.edesc = some r ∧
      r.drained = false ∧ r.c0.extractLsb' 32 16 = it.flow ∧ r.c0.extractLsb' 8 24 = it.seq ∧
      r.c0.extractLsb' 0 8 = (if it.place = .hole ∨ it.taken = false then it.desc0.extractLsb' 0 8 else it.node) ∧
      r.c1.extractLsb' 38 10 = it.port ∧ r.c1.extractLsb' 36 2 = it.action ∧ r.c1.getLsbD 35 = isLate s it ∧
      r.c1.extractLsb' 21 14 = it.desc1.extractLsb' 21 14 ∧ r.c1.extractLsb' 0 21 = it.desc1.extractLsb' 0 21 ∧
      (it.launch = none → ∃ hi, IsTime (s.now : Int) hi r.c3 ∧ r.c2 = 0#1 ++ hi.extractLsb' 0 47) ∧
      (∀ d, it.launch = some d → r.c2 = 1#1 ++ d.hi.extractLsb' 0 47 ∧ r.c3 = d.lo) ∧
      u.ports.edata = s.ports.edata ++ data ∧ u.fetch.items = s.fetch.items.filter (fun x => decide (x.id ≠ it.id)) ∧
      (u.flow it.flow).nextr = (if f.free then f.nextr else f.nextr + 1) ∧ (u.flow it.flow).infl = f.infl - 1 ∧
      u.threads = s.threads ∧ u.mem = s.mem
    (nextRelease s = some it →
      (it.place = .hole ∨ it.action ≠ 0 → ∃ u, sends u []) ∧
      (it.place = .ready → it.action = 0 → it.kept = [] → n = (it.desc1.extractLsb' 21 14).toNat →
        (∀ j, (h : j < bytes.length) →
          classify (rawByte s .normal (0x10500000 + 6 * (it.desc1.extractLsb' 0 21).toNat + j)) = .good bytes[j]) →
        ∃ u, sends u beats)) ∧
    (nextRelease s = none → exec .releaseRecord s = .next s) ∧
    (let g := s.flow flow
     g.state = .leaving → g.infl = 0 → (g.free = true ∨ g.nextr = g.leaveAt) →
      ∃ u, exec (.drainedRecord flow) s = .next u ∧ u.flow flow = { g with state := .idle, fresh := true } ∧ u.heel.drained = true ∧
        u.ports.edesc = some { drained := true, c0 := flow ++ g.leaveAt ++ 0#8, c1 := 0, c2 := 0, c3 := 0 } ∧
        u.ports.edata = s.ports.edata) ∧
    (let g := s.flow s.heel.flowsel
     (g.state = .idle → exec .flowReset s = .next (s.setFlow s.heel.flowsel { g with fresh := true })) ∧
     (g.state ≠ .idle → exec .flowReset s = .next s))

/-- R16, R20, R332, R341, R478: the frame of a FORWARD record. A kept edit goes out in its byte's place and is written into the stash with a
fresh code; of the other bytes a good one and one that needs a correction go out as they read, a cleared one as 0, and one that is
uncorrectable or poisoned as 0 with its mark in EDATA_ERR and an entry in the UE log, which holds 8. No other stored byte changes but by a
correction in legacy mode. -/
def Sys2Proof.Claims.FrameData : Prop :=
  ∀ (it : Item) (bytes : List Byte) (bad : List Bool) (s : State), fetchRuns s = true → nextRelease s = some it →
    it.place = .ready → it.action = 0 →
    let n := (it.desc1.extractLsb' 21 14).toNat
    let handle := (it.desc1.extractLsb' 0 21).toNat
    let base := 0x10500000 + 6 * handle
    let edit := editAt it.kept
    handle + (n + 5) / 6 ≤ 174762 → (it.kept.map (·.1)).Nodup → (∀ e ∈ it.kept, e.1 < n) → bytes.length = n → bad.length = n →
    (∀ j, (h : j < bytes.length) → (h' : j < bad.length) →
      (∀ b, edit j = some b → bytes[j] = b ∧ bad[j] = false) ∧
      (edit j = none →
        (∀ b, classify (rawByte s .normal (base + j)) = .good b ∨ classify (rawByte s .normal (base + j)) = .ce b →
          bytes[j] = b ∧ bad[j] = false) ∧
        (classify (rawByte s .normal (base + j)) = .clear → bytes[j] = 0 ∧ bad[j] = false) ∧
        (classify (rawByte s .normal (base + j)) = .ue ∨ classify (rawByte s .normal (base + j)) = .poison →
          bytes[j] = 0 ∧ bad[j] = true))) →
    ∃ u r, exec .releaseRecord s = .next u ∧ u.ports.edesc = some r ∧
      u.ports.edata = s.ports.edata ++ (List.range ((n + 63) / 64)).map (fun i =>
        { nb := BitVec.ofNat 7 (min 64 (n - 64 * i))
          last := decide (i + 1 = (n + 63) / 64)
          data := (bytes.drop (64 * i)).take 64
          err := (bad.drop (64 * i)).take 64 }) ∧
      (∀ j b, edit j = some b → rawByte u .normal (base + j) = encByte b) ∧
      (∀ a, (∀ j b, edit j = some b → a ≠ base + j) → rawByte u .normal a = rawByte s .normal a ∨
        (s.ecc.legacy = true ∧ ∃ b, classify (rawByte s .normal a) = .ce b ∧ rawByte u .normal a = encByte b)) ∧
      (s.ecc.uelog.length ≤ 8 → u.ecc.uelog.length = min 8 (s.ecc.uelog.length + bad.countP (· = true)))

/-- R16, R372, R382, R389, R391: the item current on a thread of a core that is fenced, here by a bite and alone in the tile: at a replayable
node it queues again in its place, at its node's priority, its visit's edits discarded and its booking moved to the transfer ledger;
at another it is ready as LOST with a loss entry of cause FENCE, its core, flow and sequence, or LOSSOVF where the log is full; and
one that a cancel had marked is ready as CANCELLED, its launch time with it (R378). -/
def Sys2Proof.Claims.FencedItems : Prop :=
  ∀ (t : ThreadId) (it : Item) (pins : Pins) (s : State), currentItem s t = some it → s.fetch.items = [it] → it.tag = none →
    it.token = none → (∀ v : ThreadId, v ≠ t → (s.thr v).cur = none) → (∀ v : ThreadId, (s.thr v).slot = none) →
    (s.cor t.core).wdg.stage = .bite → (s.cor t.core).wdg.count = 0 → (s.cor t.core).wdg.ticked = true →
    (s.cor t.core).wdg.scope = false →
    let n := s.nodeOf it.node
    let moved := it.bookW.any fun b => decide (b.core = some t.core)
    let ready := { it with
      place := .ready
      port := it.desc1.extractLsb' 38 10
      ordered := none
      readyCyc := s.fetch.cycle
      edits := []
      kept := []
      bookW := none
      bookP := none }
    let lost : LossEntry := { cause := 0, core := BitVec.ofNat 4 t.core.val, flow := it.flow, seq := it.seq }
    ∃ u, exec (.watchdogBite t.core pins) s = .next u ∧ Fenced t.core 2 s u ∧ (u.thr t).cur = none ∧
      (it.marked = false → n.replay = true → u.heel = s.heel ∧ u.fetch.items = [{ it with
        place := .queued
        prio := none
        edits := []
        dest := .none
        firstCore := if moved then none else it.firstCore
        bookW := if moved then it.bookW.map fun b => { b with core := none } else it.bookW }]) ∧
      (it.marked = false → n.replay = false → u.fetch.items = [{ ready with action := 3 }] ∧
        (s.heel.losslog.length < 32 → u.heel = { s.heel with losslog := s.heel.losslog ++ [lost] } ∧
          (s.heel.losslog = [] → s.ticStopped = false → (u.src 8).pend = true)) ∧
        (32 ≤ s.heel.losslog.length → u.heel = { s.heel with lossovf := true })) ∧
      (it.marked = true → u.heel = s.heel ∧ u.fetch.items = [{ ready with action := 2 }])

/-! ### The kennel, the keep store, the scrubber, flash clears and the borrow window -/

/-- Between two states the kennel is wiped with a TRIG (R311, R312, R402): its bytes read as zero, its cells' reservations, the buffered
stores into it, every key slot and the operands of a crypto request in flight, not of one still queued, go, and WIPING stands; only a wipe by firmware leaves
the grants. No architectural register of a thread, program memory or fabric request changes. -/
structure Sys2Proof.KennelWiped (trig : BitVec 2) (s u : State) : Prop where
  status : u.knl = { s.knl with trig := trig, wiping := true }
  empty : ∀ a, isKennel a = true → smGet 0 u.mem a = 0
  keys : u.help.keys = []
  grants : ∀ t : ThreadId, (u.thr t).grant = ((s.thr t).grant && decide (trig = 3))
  resv : ∀ t : ThreadId, (u.thr t).resv = if (s.thr t).resv.any isKennel then none else (s.thr t).resv
  operands : ∀ (t : ThreadId) k ops, (s.thr t).pend = .helper k ops → (u.thr t).pend =
    .helper k (if k.cls = 1 ∧ queuedFor s t 1 = false then [] else ops)
  arch : ∀ t : ThreadId, (u.thr t).arch = (s.thr t).arch ∧ (u.thr t).arith = (s.thr t).arith ∧ (u.thr t).en = (s.thr t).en
  stores : ∀ c : CoreId, u.cor c = { s.cor c with sb := (s.cor c).sb.filter fun e => !isKennel e.ea.toNat }
  rest : u.sprog = s.sprog ∧ u.fab = s.fab

/-- R311, R312, R313, R402: TAMPER and a wipe by firmware wipe the kennel (TRIG 1 and 3), TAMPER also takes back the grants and raises source
37, and WIPING stands until the overwrite ends with DONE and source 7, every kennel byte at zero with V clear; that this takes in a byte
written during the overwrite is the model's reading (log entry 112). The kennel's walker then starts anew, with a whole interval (R343). Stored bytes outside the kennel stay. -/
def Sys2Proof.Claims.KennelWipe : Prop :=
  ∀ (a : Nat) (s : State), isKennel a = false →
    (∃ u, exec .kennelWipe s = .next u ∧ KennelWiped 3 s u ∧ smGet 0 u.mem a = smGet 0 s.mem a ∧ u.tic = s.tic) ∧
    (∃ u, exec .tamper s = .next u ∧ KennelWiped 1 s u ∧ smGet 0 u.mem a = smGet 0 s.mem a ∧
      (s.ticStopped = false → (u.src 37).pend = true)) ∧
    (s.knl.wiping = true → uncoreRuns s = true → s.lc.busy = false → ∃ m left, exec .kennelOverwriteDone s = .next (raiseSrc 7 { s with
        mem := m
        knl := { s.knl with wiping := false, done := true }
        ecc := { s.ecc with walk := s.ecc.walk.set 1 0, left := left } }) ∧ (∀ b, smGet 0 m b = if isKennel b then 0 else smGet 0 s.mem b) ∧
      ∀ w < 18, left.getD w 0 = if w = 1 then 2 ^ max 4 (min 20 s.ecc.rate.toNat) else s.ecc.left.getD w 0) ∧
    (s.knl.wiping = false ∨ uncoreRuns s = false → exec .kennelOverwriteDone s = .next s)

/-- The cell write in progress in the keep store has ended between two states (R322, R323, R331): the lanes it carries stand in its cell, the
other lanes and every other byte a test picks are as before, DONE has set and source 35 has risen. -/
structure Sys2Proof.KeepCellWritten (j : KeepJob) (others : Nat → Bool) (s u : State) : Prop where
  done : u.ks.done = true ∧ u.ks.refused = s.ks.refused
  src : s.ticStopped = false → (u.src 35).pend = true
  cell : ∀ i, (h : i < j.bytes.length) → smGet 0 u.mem (j.addr + i) = (j.bytes[i]).getD (smGet 0 s.mem (j.addr + i))
  outside : ∀ a, others a = true → a < j.addr ∨ j.addr + j.bytes.length ≤ a → smGet 0 u.mem a = smGet 0 s.mem a

/-- The cell writes of a mark's three cells, in the keep store's life-cycle area (R489). -/
def Sys2Proof.markWrites (k : Nat) : List KeepJob :=
  [k - 1, k + 3, k + 7].map fun i =>
    { owner := .lifeCycle
      addr := 0xF0000000 + 6 * i
      bytes := (cellBytes (BitVec.ofNat 48 (0x4C4300000000 + k))).map fun b => some (encByte b) }

/-- The marks a transition to state n writes: the target's, and every lower one that is still clear (R491). -/
def Sys2Proof.marksDue (s : State) (n : Nat) : List KeepJob :=
  (((List.range n).map (· + 1)).filter fun k => decide (k = n) || !markAt s k).flatMap markWrites

/-- R322, R323, R125, R152, R455, R491: the keep store writes one cell at a time, and the next cell follows. When the last cell of a write
ends, a thread's buffered store is accepted and leaves the store buffer, a block instruction whose last step it was retires, or in a debug
halt yields with that step done (R460), a
Whistle write has its OK, and a life-cycle transition whose key and digest cells were written wipes the kennel with TRIG 2 and goes
on to the marks; an abandoned write ends so alone. That it is still performed is the model's reading (log entry 28). -/
def Sys2Proof.Claims.KeepStoreWrites : Prop :=
  ∀ (j : KeepJob) (rest : List KeepJob) (t : ThreadId) (e : SbEntry) (b : BlockState) (op : WhiOp) (s : State),
    s.ks.todo = j :: rest → uncoreRuns s = true →
    let done := exec .keepStoreWriteDone s
    let last := ∀ k ∈ rest, k.owner ≠ j.owner
    let alone := fun (u : State) => KeepCellWritten j (fun _ => true) s u ∧ u.ks.todo = rest ∧ u.sprog = s.sprog ∧
      u.tic.mcPend = s.tic.mcPend
    let kept := s.cor t.core
    let mine := kept.sb.find? fun e => decide (e.thread = t ∧ e.phase = .keep)
    (Quiet s →
      (j.owner = .orphan ∨ ¬last → ∃ u, done = .next u ∧ alone u ∧ u.threads = s.threads ∧ u.cores = s.cores ∧ u.whi = s.whi) ∧
      (last → j.owner = .thread t → mine = some e →
        ∃ u, done = .next u ∧ alone u ∧ u.threads = s.threads ∧ u.cor t.core = { kept with sb := kept.sb.erase e } ∧
          (∀ d, d ≠ t.core → u.cor d = s.cor d)) ∧
      (last → j.owner = .whistle → s.whi.op = some op →
        ∃ u, done = .next u ∧ alone u ∧ u.threads = s.threads ∧ u.cores = s.cores ∧
          u.whi = { s.whi with op := some { op with result := some { status := 0, data := 0, cmd := op.cmd } } }) ∧
      (last → j.owner = .lifeCycle → s.lc.busy = true → s.lc.phase = .copying → isKeep j.addr = true → isKeep (j.addr + 5) = true →
        j.bytes.length = 6 → ∃ u, done = .next u ∧ KeepCellWritten j (fun a => !isKennel a) s u ∧
          KennelWiped 2 s u ∧ u.lc = { s.lc with phase := .marking } ∧
          u.ks.todo = rest ++ marksDue (keepCellDone s) s.lc.target.toNat)) ∧
    (last → j.owner = .thread t → mine = none → (s.thr t).pend = .block b → b.kind ≠ .csum → 0 < b.n.toNat → b.n.toNat ≤ 6 →
      (∀ v b', v ≠ t → (s.thr v).pend ≠ .block b') → (∀ v r, (s.thr v).pend ≠ .rom r) → s.held = [] → s.dbg.stepping = false → s.dbg.injWait = none → pcHits s t = 0 →
      dataHits s t true b.a.toNat b.buf.length = 0 → (s.thr t).robPar = false →
      ∃ w, alone w ∧ w.threads = s.threads ∧ w.cores = s.cores ∧
        ∀ s1, ensureCur t false 3 w = some s1 →
          (s.frozen = false → done = .next (wordDone t 3 [] s1)) ∧
          (s.frozen = true → (s.thr t).inj = none → done =
            .next ((showProgress t (stepDone b b.buf) s1).modThr t fun th => { th with pend := .none })))

/-- R333, R336, R337, R340 to R345: a step of an enabled walker looks at one stored cell: a byte that is clear or good, or already poisoned,
stays; a correctable byte is written back with a fresh code, counts in its bank up to 0xFFFF, and stands in the CE log, if that is not
full; an uncorrectable byte becomes the poison pattern, enters the UE log with WR, or sets UEOVF where that is full, sets POISONED
and raises source 5. No byte outside the cell changes, and the walker moves on: its next step is due 2^RATE core cycles later, RATE cut to
4 to 20, and a cycle later than that after a step that writes back, as the model reads it (log entry 138). Here no scratchpad is
borrowed. -/
def Sys2Proof.Claims.ScrubSteps : Prop :=
  ∀ (w : Fin 18) (a : Nat) (s : State), walkerMay s w.val = true → (∀ c, (s.cor c).borrow.active = false) →
    s.ecc.walk.length = 18 → s.ecc.left.length = 18 →
    let n := s.ecc.walk.getD w.val 0
    let kind := fun (x : Nat) => classify (smGet 0 s.mem x)
    let isCe := fun (x : Nat) => match kind x with
      | .ce _ => true
      | _ => false
    let bad := (walkerBytes w.val n).filter fun x => decide (kind x = .ue)
    ∃ u, exec (.scrubStep w) s = .next u ∧
      u.ecc.poisoned = (s.ecc.poisoned || !bad.isEmpty) ∧
      (bad ≠ [] → s.ticStopped = false → (u.src 5).pend = true) ∧
      (s.ecc.uelog.length ≤ 8 →
        u.ecc.uelog = (s.ecc.uelog ++ bad.map fun x => byteEntry x (smGet 0 s.mem x) true).take 8 ∧
        u.ecc.ueovf = (s.ecc.ueovf || decide (8 < s.ecc.uelog.length + bad.length))) ∧
      (s.ecc.cecnt.length = 86 → ∀ b < 86, (u.ecc.cecnt.getD b 0).toNat = min 0xFFFF
        ((s.ecc.cecnt.getD b 0).toNat + (walkerBytes w.val n).countP fun x => isCe x && decide (bankOf x = b))) ∧
      (a ∈ walkerBytes w.val n → isCe a = true → 16 ≤ u.ecc.celog.length ∧ u.ecc.ceovf = true ∨
        ∃ e ∈ u.ecc.celog, e.addr = BitVec.ofNat 36 a ∧ e.prog = false ∧ e.lane = BitVec.ofNat 3 (laneOf a)) ∧
      (a ∉ walkerBytes w.val n → smGet 0 u.mem a = smGet 0 s.mem a) ∧
      (a ∈ walkerBytes w.val n → smGet 0 u.mem a = (match classify (smGet 0 s.mem a) with
        | .ce d => encByte d
        | .ue => poisonByte
        | _ => smGet 0 s.mem a)) ∧
      u.ecc.walk.getD w.val 0 = (if (walkerSpan w.val).2.2 ≤ n + 1 then 0 else n + 1) ∧
      (∀ v < 18, u.ecc.left.getD v 0 = if v = w.val then 2 ^ max 4 (min 20 s.ecc.rate.toNat) +
        (if (walkerBytes w.val n).any fun x => isCe x || decide (kind x = .ue) then 1 else 0) else s.ecc.left.getD v 0) ∧
      u.threads = s.threads ∧ u.cores = s.cores ∧ u.sprog = s.sprog

/-- R343, R344, R460: in each core cycle of a tile at Run the interval of every walker that is enabled, with a memory that is served and not
being overwritten, counts down by 1, and that of any other stands at a whole one; a debug halt freezes them. Before its interval has run
out a walker's step changes nothing. That a step comes by its command once it is due is the model's form (log entry 138). -/
def Sys2Proof.Claims.WalkerIntervals : Prop :=
  ∀ (w : Fin 18) (s : State),
    let served := if w.val = 0 then s.ecc.enSh = true else if w.val = 1 then s.ecc.enKn = true ∧ s.knl.wiping = false
      else s.ecc.enSp = true ∧ ∀ c : CoreId, w.val = 2 + c.val → spadGone s c = false
    (s.ecc.left.getD w.val 0 ≠ 0 ∨ ¬served ∨ s.frozen = true → exec (.scrubStep w) s = .next s) ∧
    (s.boot = .run → s.pwr.rest = .run → clkDiv s.profile.clk ≤ s.tk.coreAcc + 2 →
      (∀ (v : ThreadId) (n : Nat), (s.thr v).pend ≠ .flush n) → ∃ u, exec .timeKeeperCycle s = .next u ∧
        (s.frozen = true → u.ecc = s.ecc) ∧
        (s.frozen = false → u.ecc = { s.ecc with left := u.ecc.left } ∧
          (served → u.ecc.left.getD w.val 0 = s.ecc.left.getD w.val 0 - 1) ∧
          (¬served → u.ecc.left.getD w.val 0 = 2 ^ max 4 (min 20 s.ecc.rate.toNat))))

/-- R346 to R348: a commanded clear of a bank makes every byte of the bank read as V = 0 with its code and data kept, ends the reservations
there (R347) and sets BUSY until it ends; a clear of a bank that may not be cleared, or while one runs, only sets BANK (R348). That it
leaves the cores as they are, a borrow buffer's bytes included, is the model's reading (log entry 38). -/
def Sys2Proof.Claims.FlashClears : Prop :=
  ∀ (bank : BitVec 7) (a : Nat) (t : ThreadId) (s : State), memoryWf s = true →
    (s.ecc.clearBusy = false → clearable s bank.toNat = true → ∃ u, exec (.flashClear bank) s = .next u ∧
      (bankOf a = bank.toNat → smGet 0 u.mem a = smGet 0 s.mem a &&& 0x1FFF) ∧
      (bankOf a ≠ bank.toNat → smGet 0 u.mem a = smGet 0 s.mem a) ∧
      (u.thr t).resv = (if (s.thr t).resv.any (fun x => decide (bankOf x = bank.toNat)) then none else (s.thr t).resv) ∧
      u.ecc = { s.ecc with clearBank := bank, clearBusy := true } ∧ u.cores = s.cores) ∧
    (s.ecc.clearBusy = true ∨ clearable s bank.toNat = false →
      exec (.flashClear bank) s = .next { s with ecc := { s.ecc with clearBank := bank } }) ∧
    exec .flashClearDone s = .next { s with ecc := { s.ecc with clearBusy := false } }

/-- R314 to R318: START on a core without a borrow records OWNER and BASE; past base 95, or on a core in or bound for deterministic mode, it is
REFUSED; else the copy-in begins, and when it ends the buffer holds the window as the scratchpad does. RELEASE begins the copy-back;
when it ends the window holds what the buffer held, no other byte has changed, and the borrow is over. A START during a borrow is
REFUSED and changes nothing else. That a RELEASE during the copy-in ends that copy first (log entry 39), and that the copies go on in a
debug halt (log entry 96), are the model's. -/
def Obligations.BorrowWindow : Prop :=
  ∀ (c : CoreId) (o : ThreadId) (base : BitVec 7) (off a : Nat) (s : State),
    let k := s.cor c
    let w := k.borrow
    let lent := fun (x : Borrow) => s.modCor c fun k => { k with borrow := x }
    let lo := spadBase c.val + w.base.toNat * 1024
    (w.active = true → exec (.borrowStart c o base) s = .next (lent { w with refused := true })) ∧
    (w.active = false → (96 ≤ base.toNat ∨ k.det = true ∨ k.act = true) → exec (.borrowStart c o base) s =
      .next (lent { w with owner := BitVec.ofNat 7 o.val, base := base, refused := true })) ∧
    (w.active = false → base.toNat < 96 → k.det = false → k.act = false → exec (.borrowStart c o base) s =
      .next (lent { active := true, copying := true, back := false, refused := w.refused,
                    owner := BitVec.ofNat 7 o.val, base := base, buf := [] })) ∧
    (w.active = true → w.copying = true → w.back = false → ∃ u, exec (.borrowCopyInDone c) s = .next u ∧
      (u.cor c).borrow.copying = false ∧ (u.cor c).borrow.active = true ∧ u.mem = s.mem ∧ u.threads = s.threads ∧
      (off < 1024 → smGet 0 (u.cor c).borrow.buf off = smGet 0 s.mem (lo + off))) ∧
    (w.active = true → w.copying = false → exec (.borrowRelease c) s = .next (lent { w with copying := true, back := true })) ∧
    (w.active = true → w.copying = true → w.back = false → ∃ u, exec (.borrowRelease c) s = .next u ∧
      (u.cor c).borrow.active = true ∧ (u.cor c).borrow.copying = true ∧ (u.cor c).borrow.back = true ∧ u.mem = s.mem ∧
      u.threads = s.threads ∧ (off < 1024 → smGet 0 (u.cor c).borrow.buf off = smGet 0 s.mem (lo + off))) ∧
    (w.active = false ∨ (w.copying = true ∧ w.back = true) → exec (.borrowRelease c) s = .next s) ∧
    (w.active = true → w.copying = true → w.back = true → (∀ e ∈ w.buf, e.1 < 1024) → ∃ u, exec (.borrowCopyBackDone c) s = .next u ∧
      (u.cor c).borrow.active = false ∧ (off < 1024 → w.buf.Pairwise (fun x y => x.1 < y.1) →
        smGet 0 u.mem (lo + off) = smGet 0 w.buf off) ∧
      (a < lo ∨ lo + 1024 ≤ a → smGet 0 u.mem a = smGet 0 s.mem a))

/-! ### Power -/

/-- R426, R428, R429, R437: a core that meets the Nap conditions, for NAPDLY cycles, naps, its state kept; one that has napped DOZEDLY × 64
cycles and meets the Doze conditions dozes: its waits are withdrawn with their operands, its caches are empty and its threads'
registers kept. A deterministic core, one for which a wake event stands (R447), one with a leash, and one with an enabled thread that is
not parked do neither; what stood in the core's latest cycle at Run is no wake event, as the model reads it (log entry 99). For a core that rests
already the tile only asks for the uncore's Nap, when it may: that form of the command is the model's reading (log entry 58), as is
what counts as a cycle of the delays (log entry 59). A wake event starts a resting core's exit and withdraws what the tile had
asked of the host; without one nothing changes. -/
def Sys2Proof.Claims.CoreRest : Prop :=
  ∀ (c : CoreId) (t : ThreadId) (s : State),
    (mayNap s c = true → ∃ u, exec (.coreNap c) s = .next u ∧ u.cor c = { s.cor c with rest := .nap, idle := 0, rested := 0 } ∧
      (∀ d, d ≠ c → u.cor d = s.cor d) ∧ u.threads = s.threads ∧ u.mem = s.mem ∧ u.pwr.rest = s.pwr.rest) ∧
    (mayNap s c = true → s.pwr.napdly.toNat ≤ (s.cor c).idle) ∧
    (mayDoze s c = true → (s.cor c).rest = .nap ∧ s.pwr.dozedly.toNat * 64 ≤ (s.cor c).rested ∧
      (s.cor c).borrow.active = false ∧ (t.core = c → (s.thr t).slot = none)) ∧
    ((s.cor c).det = true ∨ (s.cor c).act = true ∨ coreCalled s c = true → mayNap s c = false ∧ mayDoze s c = false) ∧
    ((∀ v : ThreadId, v.core = c → threadCalled s v = false) → (∀ x ∈ standingCalls s c, x ∈ (s.cor c).seen) → coreCalled s c = false) ∧
    (t.core = c → (s.thr t).leash.on = true ∨ ((s.thr t).en = true ∧ (s.thr t).stopped = false ∧ parkCode (s.thr t).pend = 0) →
      mayNap s c = false) ∧
    (mayNap s c = false → (s.cor c).rest = .run → exec (.coreNap c) s = .next s) ∧
    ((s.cor c).rest ≠ .run → exec (.coreNap c) s =
      .next (if mayAskNap s then { s with pwr := { s.pwr with req := some .nap } } else s)) ∧
    (mayDoze s c = true → ∃ u, exec (.coreDoze c) s = .next u ∧ (u.cor c).rest = .doze ∧ (u.cor c).dlines = [] ∧
      (u.cor c).dfills = [] ∧ (u.cor c).ilines = [] ∧ (u.cor c).btb = [] ∧ (u.cor c).tau = coreTau s c ∧
      (t.core = c → (u.thr t).pend = .none ∧ (u.thr t).arch.pc = (s.thr t).arch.pc ∧ (u.thr t).arch.level = (s.thr t).arch.level ∧
        (u.thr t).arith = (s.thr t).arith) ∧
      (t.core ≠ c → (u.thr t).arch = (s.thr t).arch ∧ (u.thr t).pend = (s.thr t).pend) ∧
      (∀ d, d ≠ c → u.cor d = s.cor d)) ∧
    (mayDoze s c = false → exec (.coreDoze c) s = .next s) ∧
    ((s.cor c).rest ≠ .run → s.frozen = false → coreCalled s c = true → exec (.coreWake c) s = .next
      { (s.modCor c fun k => { k with waking := true }) with
        pwr := { s.pwr with
          req := none
          waking := s.pwr.waking || decide (s.pwr.rest = .nap ∨ (s.pwr.rest = .sleep ∧ s.dbg.attached = true)) } }) ∧
    (coreCalled s c = false → exec (.coreWake c) s = .next s)

/-- R434, R426, R447: an exit due for the earliest limit starts a resting core's exit, or the tile's. When a core's exit ends it is at Run; here its
threads are not parked; a napping uncore is at Run with it, and after Doze the walker of its scratchpad starts a whole interval (R343). When the tile's ends, for which its exit or the latch of an armed source
stands, the tile is at Run, each latch has set its source's PEND, and after Sleep source 38
has risen and the helpers that are not held off are ready. Which latch wakes the tile is the model's reading (log entry 60). -/
def Sys2Proof.Claims.WakeEnds : Prop :=
  ∀ (c : CoreId) (i : Nat) (s : State), s.frozen = false →
    ((s.cor c).rest = .nap → exitDue s (coreTau s c) 40 0 = true → exec (.timedWake (some c)) s = .next
      { (s.modCor c fun k => { k with waking := true }) with
        pwr := { s.pwr with
          req := none
          waking := s.pwr.waking || decide (s.pwr.rest = .nap ∨ (s.pwr.rest = .sleep ∧ s.dbg.attached = true)) } }) ∧
    (s.pwr.rest = .sleep → exitDue s (tileTau s) 30000 32000000 = true →
      exec (.timedWake none) s = .next { s with pwr := { s.pwr with waking := true, req := none } }) ∧
    ((s.cor c).waking = true → s.pwr.rest = .nap → s.held = [] → (∀ t : ThreadId, parkCode (s.thr t).pend = 0) →
      ∃ u, exec (.wakeCompleted (some c)) s = .next u ∧ u.pwr = { s.pwr with rest := .run, waking := false, req := none } ∧
        u.cor c = { s.cor c with rest := .run, waking := false, tau := none } ∧ u.tic.latches = 0 ∧ u.threads = s.threads) ∧
    ((s.cor c).waking = true → s.pwr.rest = .run → s.held = [] → (∀ t : ThreadId, parkCode (s.thr t).pend = 0) →
      ∃ left, exec (.wakeCompleted (some c)) s = .next { s.modCor c fun k => { k with rest := .run, waking := false, tau := none } with
          ecc := { s.ecc with left := left } } ∧ (spadGone s c = false → left = s.ecc.left) ∧
        (spadGone s c = true → ∀ w < 18, left.getD w 0 =
          if w = 2 + c.val then 2 ^ max 4 (min 20 s.ecc.rate.toNat) else s.ecc.left.getD w 0)) ∧
    (s.held = [] → s.pwr.rest ≠ .nap → s.pwr.rest ≠ .run → (s.cor c).waking = true → exec (.wakeCompleted (some c)) s = .next s) ∧
    (s.held = [] → s.pwr.rest = .sleep → s.pwr.waking = true ∨ latchWakes s = true → ∃ u, exec (.wakeCompleted none) s = .next u ∧ u.pwr.rest = .run ∧
      u.pwr.waking = false ∧ u.tic.latches = 0 ∧ u.threads = s.threads ∧ u.mem = s.mem ∧ (u.src 38).pend = true ∧
      (i < 512 → (u.src i).pend = ((s.src i).pend || s.tic.latches.getLsbD i || decide (i = 38))) ∧
      u.help.ready = s.help.ready ||| ~~~s.help.off) ∧
    (s.held = [] → s.pwr.waking = false → latchWakes s = false → exec (.wakeCompleted none) s = .next s)

/-- R430, R431, R438, R439, R458: a tile that meets the Sleep or the Off conditions asks the host for the level; an emulated Off is only reported in
LAST. The host's grant takes the tile there with LAST recording it: helpers are off in Sleep, and the kennel loses its contents in Off,
where every output outside the always-on domain is clamped. While a debug halt stands the grant waits for its end, and an entry waits while a
condition of its level fails, the request open; against a standing
wake event it withdraws the request. PWR_WAKE sets HOSTWAKE, withdraws the request and starts the exit. A descriptor that is taken
withdraws the request too, and one offered while the uncore naps wakes it, an emulated nap included (R437). PWR_LEVEL
shows the level asked for, or the tile's. That such a descriptor, and a grant that meets a standing event, withdraw the request, and that
one whose conditions fail leaves it open, is the model's reading (log entry 58). -/
def Obligations.TileRestLevels : Prop :=
  ∀ (a : Nat) (s : State),
    (fetchRuns s = true → ∀ c0 c1 c2 c3 : Cell, exec (.itemDescriptor c0 c1 c2 c3) s =
      exec (.itemDescriptor c0 c1 c2 c3) { s with pwr := { s.pwr with req := none } }) ∧
    (s.pwr.rest = .nap → s.frozen = false → ∀ c0 c1 c2 c3 : Cell, ∃ u, exec (.itemDescriptor c0 c1 c2 c3) s = .next u ∧
      u.pwr = { s.pwr with req := none, waking := true } ∧ (fetchRuns s = false → u.fetch = s.fetch)) ∧
    (maySleep s = true → exec .tileSleep s = .next { s with pwr := { s.pwr with req := some .sleep } }) ∧
    (maySleep s = false → exec .tileSleep s = .next s) ∧
    (mayOff s = true → (s.dbg.attached = false → exec .tileOff s = .next { s with pwr := { s.pwr with req := some .off } }) ∧
      (s.dbg.attached = true → exec .tileOff s = .next { s with pwr := { s.pwr with last := 5 } })) ∧
    (s.frozen = true → exec .pwrAck s = .next { s with held := s.held ++ [.pwrAck] }) ∧
    (s.frozen = false → wakeStands s = true → exec .pwrAck s = .next { s with pwr := { s.pwr with req := none } }) ∧
    (s.pwr.waking = true ∨ (latchWakes s = true ∧ s.pwr.rest ≠ .run) ∨ (∃ c, (s.cor c).waking = true ∨ ((s.cor c).rest ≠ .run ∧ coreCalled s c = true)) →
      wakeStands s = true) ∧
    (s.frozen = false → wakeStands s = false →
      (s.pwr.req = some .nap → napHolds s = true → exec .pwrAck s = .next { s with pwr := { s.pwr with req := none, rest := .nap, last := 2 } }) ∧
      (s.pwr.req = some .sleep → sleepHolds s = true → s.dbg.attached = false → exec .pwrAck s = .next
      { s with pwr := { s.pwr with req := none, rest := .sleep, last := 4 }, help := { s.help with ready := 0 } }) ∧
      (s.pwr.req = some .off → s.ks.todo = [] → ∃ u, exec .pwrAck s = .next u ∧
        u.pwr = { s.pwr with req := none, rest := .off, last := 5 } ∧
        smGet 0 u.mem a = (if isKennel a then 0 else smGet 0 s.mem a) ∧ u.threads = s.threads ∧ u.cores = s.cores ∧
        u.ports = { Ports.boot with whistle := s.ports.whistle, presence := s.ports.presence, rdata := s.ports.rdata }) ∧
      (s.pwr.req = some .off ∧ s.ks.todo ≠ [] ∨ s.pwr.req = some .nap ∧ napHolds s = false ∨
        s.pwr.req = some .sleep ∧ sleepHolds s = false → exec .pwrAck s = .next s) ∧
      (s.pwr.req = none → exec .pwrAck s = .next s)) ∧
    (pwrReqOut s = true ↔ s.pwr.req ≠ none) ∧
    pwrLevelOut s = (match s.pwr.req.getD s.pwr.rest with | .run => 0 | .nap => 0b010 | .sleep => 0b100 | .off => 0b101) ∧
    (∃ u, exec .pwrWake s = .next u ∧ u.pwr.hostwake = true ∧ u.pwr.req = none ∧
      u.pwr.waking = (s.pwr.waking || decide (s.pwr.rest ≠ .run)) ∧ u.pwr.rest = s.pwr.rest ∧
      u.threads = s.threads ∧ u.cores = s.cores ∧ u.mem = s.mem)

/-- R438, R401, R72: OFF[i] is set and cleared by its commands; a class held off with no request in flight loses its HELPERS bit, one that has a request
keeps it, and a class that is not held off becomes ready while the uncore's clock runs. A debug halt holds both back (R460). Where the
operations of a class under way have delivered their results and none waits, the class goes with their words still to retire (R61,
R419): that a command says so is the model's choice (log entry 29). -/
def Sys2Proof.Claims.HelperPower : Prop :=
  ∀ (i j : Fin 4) (s : State),
    (∃ u, exec (.helperOffCommand i) s = .next u ∧ u.help.off.getLsbD j.val = (s.help.off.getLsbD j.val || decide (j = i)) ∧
      u.help.ready = s.help.ready ∧ u.threads = s.threads) ∧
    (∃ u, exec (.helperOnCommand i) s = .next u ∧ u.help.off.getLsbD j.val = (s.help.off.getLsbD j.val && decide (j ≠ i)) ∧
      u.help.ready = s.help.ready ∧ u.threads = s.threads) ∧
    (s.frozen = true → exec (.helperPowerOff i) s = .next s ∧ exec (.helperPowerOff i true) s = .next s ∧
      exec (.helperReady i) s = .next s) ∧
    (s.frozen = false → s.help.off.getLsbD i.val = true → helperQueues s i.val = false → ∃ u, exec (.helperPowerOff i true) s = .next u ∧
      u.help.ready.getLsbD j.val = (s.help.ready.getLsbD j.val && decide (j ≠ i)) ∧ u.help.off = s.help.off ∧ u.threads = s.threads) ∧
    (s.frozen = false → s.help.off.getLsbD i.val = true → (∀ (t : ThreadId) k ops, (s.thr t).pend = .helper k ops → k.cls ≠ i.val) →
      ∃ u, exec (.helperPowerOff i) s = .next u ∧ u.help.ready.getLsbD j.val = (s.help.ready.getLsbD j.val && decide (j ≠ i)) ∧
        u.help.off = s.help.off) ∧
    (∀ (t : ThreadId) k ops, (s.thr t).pend = .helper k ops → k.cls = i.val → exec (.helperPowerOff i) s = .next s) ∧
    (s.frozen = false → s.help.off.getLsbD i.val = false → uncoreRuns s = true → ∃ u, exec (.helperReady i) s = .next u ∧
      u.help.ready.getLsbD j.val = (s.help.ready.getLsbD j.val || decide (j = i)) ∧ u.help.off = s.help.off) ∧
    (s.help.off.getLsbD i.val = true ∨ uncoreRuns s = false → exec (.helperReady i) s = .next s)

/-- R446, R442: a commanded load of a profile that passes its checks and disables no busy thread begins with every core awake, and no thread
issues until it is complete; a profile that fails its checks sets PROFERR and REFUSED, while a load runs too, and a load while one runs
sets REFUSED. When every core is awake and quiesced the load ends: the profile, as it read at GO, is in effect, and EN and DET are the
profile's; so is ACT, but for a core whose borrow holds off deterministic mode and which goes on with the switch (R315). That it is not
read again at the end (log entry 61), and that the tile's own reading counts corrected bytes (log entry 98), are the model's readings. -/
def Sys2Proof.Claims.ProfileLoads : Prop :=
  ∀ (sel : BitVec 2) (p : Profile) (c : CoreId) (t : ThreadId) (s : State),
    let s0 := readsProfile sel.toNat s
    let s1 := { s0 with pwr := { s0.pwr with sel := sel, req := none } }
    (s.pwr.loading = true → loadProfile s sel.toNat = some p → exec (.profileLoadCommand sel) s = .next { s1 with pwr := { s1.pwr with refused := true } }) ∧
    (loadProfile s sel.toNat = none →
      exec (.profileLoadCommand sel) s = .next { s1 with pwr := { s1.pwr with refused := true, proferr := true } }) ∧
    (s.pwr.loading = false → loadProfile s sel.toNat = some p → loadDisturbs s p = false → (∀ d, (s.cor d).rest = .run) →
      ∃ u, exec (.profileLoadCommand sel) s = .next u ∧ u = { s1 with pwr := { s1.pwr with loading := true, load := some (sel, p) } } ∧
        canIssue u t = false) ∧
    (s.pwr.load = some (sel, p) → s.frozen = false → s.pwr.rest = .run → (∀ v : ThreadId, (s.thr v).pend = .none) →
      (∀ d, (s.cor d).rest = .run ∧ (s.cor d).waking = false ∧ (s.cor d).sb = []) →
      ∃ u, exec .profileLoadComplete s = .next u ∧ u.profile = p ∧ u.profIdx = sel ∧ u.pwr.loading = false ∧ u.pwr.load = none ∧
        (u.cor c).enabled = p.coreOn c ∧ (u.cor c).det = p.coreDet c ∧
        (let barred := p.coreDet c && !(s.cor c).act && (s.cor c).borrow.active
         (u.cor c).act = (p.coreDet c && !barred) ∧ (u.cor c).switching = barred) ∧
        (u.thr t).en = p.threadOn t ∧ (u.thr t).arch = (s.thr t).arch ∧ u.mem = s.mem) ∧
    (s.pwr.load = none → exec .profileLoadComplete s = .next s)

/-! ### Register writes and the life cycle -/

/-- The keep store's write of cell i of the life-cycle area: 6 bytes of a list from byte 6 k on, zeros behind its end (R489, R491). -/
def Sys2Proof.areaWrite (i : Nat) (bs : List Byte) (k : Nat) : KeepJob :=
  { owner := .lifeCycle
    addr := 0xF0000000 + 6 * i
    bytes := (List.range 6).map fun j => some (encByte (bs.getD (6 * k + j) 0)) }

/-- R490, R491, R412, R415: a write of LC.CMD that a condition turns away only sets REFUSED, and one accepted while the kennel is being
overwritten sets BUSY and waits; once the last mark stands written the tile resets with SRC 4. A write of LKP.TRES commits the staged
key and mask with RES to the selected entry, and no other. A write of SEQ.CFG sets the selected stream's fields with TAKEANY 1 and
HIST 0, or waits for its pending update. That a TARGET above SCRAP is turned away, and the wait for an overwrite that runs, are the
model's reading (log entry 27), and so are ACT and LEASH_OVR after the reset (log entries 86 and 84). -/
def Sys2Proof.Claims.CommandRegisterWrites : Prop :=
  ∀ (v : Cell) (pins : Pins) (s : State),
    let target : BitVec 3 := v.extractLsb' 0 3
    let turned := v.extractLsb' 32 16 ≠ 0x1C5E ∨ target ≤ s.lc.stateOut ∨ s.lc.busy = true ∨
      (target = 3 ∧ s.lc.unlocked = false) ∨ s.lc.stateOut = 4 ∨ 4 < target
    let committed : Tern :=
      { keyhi := s.help.stKeyhi
        keylo := s.help.stKeylo
        mskhi := s.help.stMskhi
        msklo := s.help.stMsklo
        valid := v.getLsbD 47
        data := v.extractLsb' 0 32 }
    let configured : Stream :=
      { s.help.stream s.help.seqSel with
        en := v.getLsbD 47
        hlenm1 := v.extractLsb' 12 6
        timeout := v.extractLsb' 0 12
        takeany := true
        hist := 0 }
    (turned → exec (.lcTransition v) s = .next { s with lc := { s.lc with refused := true } }) ∧
    (¬turned → s.knl.wiping = true → exec (.lcTransition v) s =
      .next { s with lc := { s.lc with busy := true, target := target, phase := .waiting } }) ∧
    (s.lc.busy = true → s.lc.phase = .marking → keepHas s .lifeCycle = false →
      ∃ u, exec (.lcTransitionComplete pins) s = .next u ∧
        FreshTile 2 (resetRecord 2 4 0) false pins (raiseSrc 36 s) u ∧ (s.ks.todo = [] → u.mem = s.mem)) ∧
    (s.lc.busy = false ∨ s.lc.phase ≠ .marking ∨ keepHas s .lifeCycle = true → exec (.lcTransitionComplete pins) s = .next s) ∧
    (∃ u, exec (.ternaryCommit v) s = .next u ∧
      smGet Tern.boot u.help.tern s.help.tsel.toNat = committed ∧
      (∀ i, i ≠ s.help.tsel.toNat → smGet Tern.boot u.help.tern i = smGet Tern.boot s.help.tern i) ∧
      u = { s with help := { s.help with tern := u.help.tern } }) ∧
    (∃ u, exec (.streamReset v) s = .next u ∧
      if s.help.seqPend.any (fun p => decide (p.stream = s.help.seqSel)) then
        u = { s with help := { s.help with cfgWait := s.help.cfgWait ++ [(s.help.seqSel, v)] } }
      else
        u.help.stream s.help.seqSel = configured ∧
        (∀ i, i ≠ s.help.seqSel → u.help.stream i = s.help.stream i) ∧
        u = { s with help := { s.help with streams := u.help.streams } })

/-- R491, R489, R311: an accepted transition while no overwrite of the kennel runs sets BUSY. To SEALED it first writes the key and digest cells
from 64 bytes of the kennel, to RETURN or SCRAP it writes them as zero; with nothing to write, and once they stand written, it
wipes the kennel with TRIG 2 and writes the three cells of the target's mark and of every lower mark still clear. One that waited for
an overwrite starts so when that ends (log entry 27). That the tile's own reading of the kennel counts corrected bytes is the model's
reading (log entry 98). -/
def Sys2Proof.Claims.LifeCycleSteps : Prop :=
  ∀ (v : Cell) (a i n : Nat) (x : Byte) (s : State),
    let target : BitVec 3 := v.extractLsb' 0 3
    let taken := v.extractLsb' 32 16 = 0x1C5E ∧ s.lc.stateOut < target ∧ target ≤ 4 ∧ s.lc.busy = false ∧
      (target = 3 → s.lc.unlocked = true)
    let started := fun (phase : LcPhase) => { s.lc with busy := true, target := target, phase := phase }
    let cells := fun (bs : List Byte) => (List.range 6).map (fun i => areaWrite (24 + i) (bs.take 32) i) ++
      (List.range 6).map (fun i => areaWrite (16 + i) (bs.drop 32) i)
    let copied := fun (bs : List Byte) (x : State) =>
      { x with lc := started .copying, ks := { s.ks with todo := s.ks.todo ++ cells bs } }
    (taken → s.knl.wiping = false →
      (target = 1 → ∃ u, exec (.lcTransition v) s = .next u ∧ KennelWiped 2 s u ∧ u.lc = started .marking ∧
        (isKennel a = false → smGet 0 u.mem a = smGet 0 s.mem a) ∧ u.ks = { s.ks with todo := s.ks.todo ++ marksDue s 1 }) ∧
      (target = 2 → exec (.lcTransition v) s = .next (copied (logicBytes s 0x10700004 64) (logicReads 0x10700004 64 s))) ∧
      (target = 3 ∨ target = 4 → exec (.lcTransition v) s = .next (copied (List.replicate 64 0) s))) ∧
    (i < n → rawByte s .normal (a + i) = encByte x → (logicBytes s a n)[i]? = some x) ∧
    (i < n → rawByte s .normal (a + i) = 0 → (logicBytes s a n)[i]? = some 0) ∧
    (s.lc.busy = true → s.lc.phase = .waiting → s.lc.target = 1 → s.knl.wiping = true → uncoreRuns s = true →
      ∃ u, exec .kennelOverwriteDone s = .next u ∧ u.lc = { s.lc with phase := .marking } ∧ u.knl.trig = 2 ∧
        u.knl.wiping = true ∧ u.ks = { s.ks with todo := s.ks.todo ++ marksDue s 1 } ∧ u.help.keys = [])

/-- The register a write names takes it: the tile runs, the address is the register's own (R495), and the writer's level, or the Whistle
port in the life cycle's state, may store to it (R498, R499, R502). -/
structure Sys2Proof.Reaches (ag : Agent) (a : BitVec 36) (r : RegRef) (v : Cell) (s : State) : Prop where
  runs : s.boot = .run
  there : a.toNat = r.addr
  mapped : r.mapped = true
  may : writerMay ag r v s = true

/-- R494 to R499, R502, R7: a write that is no cell of a register, one to a read-only register, and a thread's write below M to a tile
register change nothing. A write that reaches a register replaces its RW fields alone and clears the RW1C bits it writes 1 to, shown here for FAB.CTL,
WDG.GRACE, SCRUB.CTL (a walker it enables starts a whole interval in the next cycle, R343), FETCH.QWM, HEEL.CTL, TIC.MCTGT, PWR.HCTL, CORE.LEASHLIM, CORE.XFLOOR, THR.PRED, THR.SFAR, the data
windows, KSTORE.STATUS, TK.STATUS and a gate-table entry; THR.PRED also in the state that an abandoned unstacking falls back to (R282).
In the first cycle of a reset, of a thread, a core or the tile, that covers the register the write is discarded (R504); that an operand of the command
says so is the model's choice (log entry 103). That a write not let through changes nothing is the command's form (log entry
2); that a clear of PPS meets the edge, which wins (R423), until the time keeper's next cycle is the model's choice (log entry 11). -/
def Obligations.RegisterWrites : Prop :=
  ∀ (ag : Agent) (a : BitVec 36) (v : Cell) (s : State),
    (a.toNat % 6 ≠ 0 → exec (.registerWrite ag a v) s = .next s) ∧
    (a.toNat < 0x40000000 ∨ 0x40320000 ≤ a.toNat → exec (.registerWrite ag a v) s = .next s) ∧
    (∀ r : RegRef, a.toNat = r.addr → r.mapped = true → readOnly r = true → exec (.registerWrite ag a v) s = .next s) ∧
    (∀ (u : ThreadId) (k : Nat), ag = .thread u → curLevel s u ≠ .M → a.toNat = 0x40000002 + 6 * k → k ≤ 9151 →
      exec (.registerWrite ag a v) s = .next s) ∧
    (Reaches ag a (.tile 1) v s → exec (.registerWrite ag a v) s = .next { s with fab := { s.fab with timeout := v.extractLsb' 0 24 } }) ∧
    (Reaches ag a (.tile 7) v s → exec (.registerWrite ag a v) s =
      .next { s with ks := { s.ks with refused := s.ks.refused && !v.getLsbD 1, done := s.ks.done && !v.getLsbD 0 } }) ∧
    (Reaches ag a (.tile 10) v s → exec (.registerWrite ag a v) s = .next { s with grace := v.extractLsb' 0 24 }) ∧
    (Reaches ag a (.tile 64) v s → ∃ left, exec (.registerWrite ag a v) s = .next { s with ecc := { s.ecc with
        rate := v.extractLsb' 0 5, enSp := v.getLsbD 7, enKn := v.getLsbD 6, enSh := v.getLsbD 5, left := left } } ∧
      ∀ w < 18, let was := if w = 0 then s.ecc.enSh else if w = 1 then s.ecc.enKn else s.ecc.enSp
        let is := v.getLsbD (if w = 0 then 5 else if w = 1 then 6 else 7)
        left.getD w 0 = if is = true ∧ was = false then 2 ^ max 4 (min 20 (v.extractLsb' 0 5).toNat) + 1 else s.ecc.left.getD w 0) ∧
    (Reaches ag a (.tile 25) v s → exec (.registerWrite ag a v) s = .next { s with tk := { s.tk with
      steperr := s.tk.steperr && !v.getLsbD 3
      buserr := s.tk.buserr && !v.getLsbD 2
      miss := s.tk.miss && !v.getLsbD 1
      pps := s.tk.pps && (!v.getLsbD 0 || decide (s.tk.ppsAge = some 0)) } }) ∧
    (Reaches ag a (.tile 39) v s → exec (.registerWrite ag a v) s = .next { s with help := { s.help with off := v.extractLsb' 0 4 } }) ∧
    (Reaches ag a (.tile 258) v s → exec (.registerWrite ag a v) s = .next { s with fetch := { s.fetch with wm := v.extractLsb' 0 13 } }) ∧
    (Reaches ag a (.tile 320) v s → exec (.registerWrite ag a v) s = .next { s with heel := { s.heel with stuck := v.extractLsb' 0 16 } }) ∧
    (Reaches ag a (.tile 449) v s → exec (.registerWrite ag a v) s = .next { s with tic := { s.tic with mctgt := v.extractLsb' 0 7 } }) ∧
    (∀ i : Nat, i < 256 → Reaches ag a (.tile (2048 + 2 * i)) v s → ∃ u, exec (.registerWrite ag a v) s = .next u ∧
      smGet GateEntry.boot u.gates i = { smGet GateEntry.boot s.gates i with enta := v &&& 0xFFFFFFEFFFFF } ∧
      (∀ j, j ≠ i → smGet GateEntry.boot u.gates j = smGet GateEntry.boot s.gates j) ∧ u = { s with gates := u.gates }) ∧
    (∀ i : Nat, i < 256 → Reaches ag a (.tile (2049 + 2 * i)) v s → ∃ u, exec (.registerWrite ag a v) s = .next u ∧
      smGet GateEntry.boot u.gates i = { smGet GateEntry.boot s.gates i with entb := v &&& 0x30000FFFFFFF } ∧
      (∀ j, j ≠ i → smGet GateEntry.boot u.gates j = smGet GateEntry.boot s.gates j) ∧ u = { s with gates := u.gates }) ∧
    (∀ c : CoreId, Reaches ag a (.core c 10) v s → exec (.registerWrite ag a v) s = .next (s.modCor c fun k =>
      { k with leashM := v.extractLsb' 24 12, leashS := v.extractLsb' 12 12, leashT := v.extractLsb' 0 12 })) ∧
    (∀ c : CoreId, Reaches ag a (.core c 7) v s → ∃ x : BitVec 32, x.extractLsb' 18 2 = 0b10 ∧
      (∀ i, i ≠ 18 → i ≠ 19 → x.getLsbD i = (v.extractLsb' 0 32).getLsbD i) ∧
      exec (.registerWrite ag a v) s = .next (s.modCor c fun k => { k with xfloor := x })) ∧
    (∀ t : ThreadId, Reaches ag a (.thread t 3) v s → exec (.registerWrite ag a v) s = .next (s.modThr t fun th =>
      let put := fun (x : Arch) => { x with p3 := v.getLsbD 3, p2 := v.getLsbD 2, p1 := v.getLsbD 1 }
      { th with arch := put th.arch, unstack := th.unstack.map put })) ∧
    (∀ r : RegRef, Reaches ag a r v s → ResetUnderWay r s → exec (.registerWrite ag a v true) s = .next s) ∧
    (∀ t : ThreadId, Reaches ag a (.thread t 7) v s → exec (.registerWrite ag a v) s = .next (s.modThr t fun th =>
      { th with sfar := { th.sfar with valid := th.sfar.valid && !v.getLsbD 47, more := th.sfar.more && !v.getLsbD 46 } })) ∧
    (∀ (t : ThreadId) (k : Nat), 33 ≤ k → k ≤ 36 → Reaches ag a (.thread t k) v s →
      exec (.registerWrite ag a v) s = .next (s.modThr t fun th => { th with
        dwloT := if k = 33 then v.extractLsb' 0 36 else th.dwloT
        dwhiT := if k = 34 then v.extractLsb' 0 36 else th.dwhiT
        dwloS := if k = 35 then v.extractLsb' 0 36 else th.dwloS
        dwhiS := if k = 36 then v.extractLsb' 0 36 else th.dwhiS }))

/-! ### The claims of several parts -/

/-- A step carries out the command at the front of the queue, and every command answers a next state: StepRunsFront and EveryCommandAnswers. -/
def Obligations.QueueRunsFront : Prop :=
  Claims.StepRunsFront ∧ Claims.EveryCommandAnswers

/-- A squashed word, whatever word it is, only advances the PC; the guards that a drain of THR.PRED meets: SquashEffects and StoreDrainPred. -/
def Obligations.SquashedWords : Prop :=
  Claims.SquashEffects ∧ Claims.StoreDrainPred

/-- Shuffles move whole cells; LIT and LITX build literals: ShuffleResults and LiteralResults. -/
def Obligations.ShufflesAndLiterals : Prop :=
  Claims.ShuffleResults ∧ Claims.LiteralResults

/-- The divides: quotient, remainder, OV, DZ and the divide trap: DivideResults and DivideTraps. -/
def Obligations.Divisions : Prop :=
  Claims.DivideResults ∧ Claims.DivideTraps

/-- Logic, shifts, bit counts, byte swaps and bit fields: LogicResults and FieldResults. -/
def Obligations.LogicShiftsAndFields : Prop :=
  Claims.LogicResults ∧ Claims.FieldResults

/-- Branches, calls, returns and NEXT: TransferResults and ReturnResult and LoopResults. -/
def Obligations.ControlTransfers : Prop :=
  Claims.TransferResults ∧ Claims.ReturnResult ∧ Claims.LoopResults

/-- BKPT, reserved encodings, KILL and what becomes of its item; the halting BKPT and the comparators: BreakAndKillResults and KilledItems and HaltingWords. -/
def Obligations.BreakAndKillResults : Prop :=
  Claims.BreakAndKillResults ∧ Claims.KilledItems ∧ Claims.HaltingWords

/-- Taking an exception, and the return from an entry: ExceptionEntry and ReturnFromEntry. -/
def Obligations.ExceptionEntryAndReturn : Prop :=
  Claims.ExceptionEntry ∧ Claims.ReturnFromEntry

/-- GATE raises the level with its linkage, GRET returns: GateResult and GateFaults and GateReturnResult. -/
def Obligations.GateCrossings : Prop :=
  Claims.GateResult ∧ Claims.GateFaults ∧ Claims.GateReturnResult

/-- Effective addresses, and the loads at once or from the fabric and the register map: EffectiveAddresses and LoadResults and LoadElsewhere. -/
def Obligations.LoadsAndAddresses : Prop :=
  Claims.EffectiveAddresses ∧ Claims.LoadResults ∧ Claims.LoadElsewhere

/-- Stores enter the store buffer; SC6, TAS and CAS6: StoreResults and AtomicResults. -/
def Obligations.StoresAndAtomics : Prop :=
  Claims.StoreResults ∧ Claims.AtomicResults

/-- FENCE, FLUSH, INVAL and the program-store words; a FLUSH and the ports in a core cycle: OrderAndCacheResults and PortCycles. -/
def Obligations.OrderAndCacheResults : Prop :=
  Claims.OrderAndCacheResults ∧ Claims.PortCycles

/-- MOVE, FILL and CSUM: one step, and the whole run: BlockSteps and BlockRuns. -/
def Obligations.BlockResults : Prop :=
  Claims.BlockSteps ∧ Claims.BlockRuns

/-- WAITT, WFE and GETWORK wait and end; SEV signals: WaitResults and WaitEnds and SendEventResult. -/
def Obligations.WaitsAndEvents : Prop :=
  Claims.WaitResults ∧ Claims.WaitEnds ∧ Claims.SendEventResult

/-- FORWARD, DONE, DROPW, TAG, UNTAG and SETLAUNCH: ForwardResult and VisitEndResults and TaggedVisitEnds and TagAndLaunchResults. -/
def Obligations.WorkWords : Prop :=
  Claims.ForwardResult ∧ Claims.VisitEndResults ∧ Claims.TaggedVisitEnds ∧ Claims.TagAndLaunchResults

/-- LEASH and UNLEASH, a leash that runs out, and its overrun: LeashResults and LeashEnds. -/
def Obligations.Leashes : Prop :=
  Claims.LeashResults ∧ Claims.LeashEnds

/-- A helper word is launched, or illegal where its class is absent: HelperLaunch and HelperAbsent and HelperAbsentAtEnd. -/
def Obligations.HelperWords : Prop :=
  Claims.HelperLaunch ∧ Claims.HelperAbsent ∧ Claims.HelperAbsentAtEnd

/-- Lookups, the exact table, HASH and sequence recovery: LookupResults and ExactTable. -/
def Obligations.LookupAndRecoveryResults : Prop :=
  Claims.LookupResults ∧ Claims.ExactTable

/-- A customer word drives its request and completes with the answer: CustomerRequest and CustomerAnswer. -/
def Obligations.CustomerHelper : Prop :=
  Claims.CustomerRequest ∧ Claims.CustomerAnswer

/-- A buffered store drains to memory, a register, the frame window, the fabric or the keep store, or is refused: StoreDrainMemory and StoreDrainReg and StoreDrainFrame and StoreDrainElsewhere. -/
def Obligations.StoreDrains : Prop :=
  Claims.StoreDrainMemory ∧ Claims.StoreDrainReg ∧ Claims.StoreDrainFrame ∧ Claims.StoreDrainElsewhere

/-- Cache fills, the spill engine and the mode switch: CacheFills and SpillEngine and ModeSwitch. -/
def Obligations.CoreEngines : Prop :=
  Claims.CacheFills ∧ Claims.SpillEngine ∧ Claims.ModeSwitch

/-- Answers of the semaphore unit and of the fabric: SemaphoreAnswers and FabricAnswers. -/
def Obligations.OutsideAnswers : Prop :=
  Claims.SemaphoreAnswers ∧ Claims.FabricAnswers

/-- A cycle of the time keeper, a time step, and the PPS capture: TimeKeeperCycle and TimeStep and PpsCapture. -/
def Obligations.TimeKeeping : Prop :=
  Claims.TimeKeeperCycle ∧ Claims.TimeStep ∧ Claims.PpsCapture

/-- Edges, retractions, claims and latches of the interrupt sources: SourceEdges and ReadsWithEffect. -/
def Obligations.InterruptSources : Prop :=
  Claims.SourceEdges ∧ Claims.ReadsWithEffect

/-- Entry of an interrupt and of a machine check: InterruptEntry and MachineCheckEntry. -/
def Obligations.InterruptAndMachineCheckEntry : Prop :=
  Claims.InterruptEntry ∧ Claims.MachineCheckEntry

/-- Thread and core resets, and OWNER_RESET with its acknowledgement: ThreadReset and CoreReset and OwnerResets. -/
def Obligations.ThreadAndCoreResets : Prop :=
  Claims.ThreadReset ∧ Claims.CoreReset ∧ Claims.OwnerResets

/-- Tile reset, power-on reset, wake from Off, the release of a held reset, and the boot ROM: TileResets and BootRom. -/
def Obligations.TileResets : Prop :=
  Claims.TileResets ∧ Claims.BootRom

/-- The watchdogs, a visit that is stuck, and what a fence does with items: Watchdogs and HeelStuck and FencedItems. -/
def Obligations.WatchdogsAndStuckVisits : Prop :=
  Claims.Watchdogs ∧ Claims.HeelStuck ∧ Claims.FencedItems

/-- A debug halt and its release: HaltAndRelease and Resume. -/
def Obligations.HaltAndResume : Prop :=
  Claims.HaltAndRelease ∧ Claims.Resume

/-- Selecting a thread, writing its DPC, stepping it and injecting a word: SelectAndDpc and StepAndInject. -/
def Obligations.SelectStepInject : Prop :=
  Claims.SelectAndDpc ∧ Claims.StepAndInject

/-- Whistle commands and their refusals: WhistleCommands and WhistleRefusals. -/
def Obligations.WhistleCommands : Prop :=
  Claims.WhistleCommands ∧ Claims.WhistleRefusals

/-- Whistle reads and writes, and the end of a pending operation: WhistleReads and WhistleWrites and WhistleOperationEnd. -/
def Obligations.WhistleAccesses : Prop :=
  Claims.WhistleReads ∧ Claims.WhistleWrites ∧ Claims.WhistleOperationEnd

/-- Item descriptors at the acceptance port, admission, and the stash beats: Descriptors and Admission and StashBeats. -/
def Obligations.DescriptorsAndBeats : Prop :=
  Claims.Descriptors ∧ Claims.Admission ∧ Claims.StashBeats

/-- Cancels and fence tokens: Cancels and WaitingCancels and FenceTokens. -/
def Obligations.CancelsAndTokens : Prop :=
  Claims.Cancels ∧ Claims.WaitingCancels ∧ Claims.FenceTokens

/-- An item goes to a thread, and the ledgers advance: ItemDispatch and LedgerAdvance. -/
def Obligations.ItemDispatch : Prop :=
  Claims.ItemDispatch ∧ Claims.LedgerAdvance

/-- Release records with their data, and drained records: RecordFields and FrameData. -/
def Obligations.ReleaseRecords : Prop :=
  Claims.RecordFields ∧ Claims.FrameData

/-- The kennel wipe and the cell writes of the keep store: KennelWipe and KeepStoreWrites. -/
def Obligations.KennelAndKeepStore : Prop :=
  Claims.KennelWipe ∧ Claims.KeepStoreWrites

/-- A scrub step, the intervals between them, and the flash clear: ScrubSteps and WalkerIntervals and FlashClears. -/
def Obligations.ScrubAndClear : Prop :=
  Claims.ScrubSteps ∧ Claims.WalkerIntervals ∧ Claims.FlashClears

/-- A core naps, dozes and wakes; timed wakes: CoreRest and WakeEnds. -/
def Obligations.CoreRestAndWake : Prop :=
  Claims.CoreRest ∧ Claims.WakeEnds

/-- Helper power and profile loads: HelperPower and ProfileLoads. -/
def Obligations.HelperPowerAndProfiles : Prop :=
  Claims.HelperPower ∧ Claims.ProfileLoads

/-- LC.CMD and the steps of a transition, LKP.TRES and SEQ.CFG: CommandRegisterWrites and LifeCycleSteps. -/
def Obligations.CommandRegisters : Prop :=
  Claims.CommandRegisterWrites ∧ Claims.LifeCycleSteps
end

