-- ==== Sys2Proof/Laws/State.lean ====
section
/-! SUPPORT. One lemma per field per update of the state, so that no proof unfolds a record update. -/

namespace Sys2Proof.Laws

open Sys2Proof Sys2Proof.Machine

variable (s : State)

/-! ### Threads and cores by number -/

@[simp] theorem setThr_thr_same (t : ThreadId) (x : Thread) : (s.setThr t x).thr t = x := by
  simp [State.setThr, State.thr]

@[simp] theorem setThr_thr_other {t u : ThreadId} (x : Thread) (h : u ≠ t) : (s.setThr t x).thr u = s.thr u := by
  have : t.val ≠ u.val := fun e => h (Fin.ext e.symm)
  simp [State.setThr, State.thr, this]

@[simp] theorem modThr_thr_same (t : ThreadId) (f : Thread → Thread) : (s.modThr t f).thr t = f (s.thr t) := by
  simp [State.modThr]

@[simp] theorem modThr_thr_other {t u : ThreadId} (f : Thread → Thread) (h : u ≠ t) : (s.modThr t f).thr u = s.thr u := by
  simp [State.modThr, h]

@[simp] theorem mapThreads_thr (f : Thread → Thread) (t : ThreadId) : (s.mapThreads f).thr t = f (s.thr t) := by
  simp [State.mapThreads, State.thr]

@[simp] theorem setCor_cor_same (c : CoreId) (x : Core) : (s.setCor c x).cor c = x := by
  simp [State.setCor, State.cor]

@[simp] theorem setCor_cor_other {c d : CoreId} (x : Core) (h : d ≠ c) : (s.setCor c x).cor d = s.cor d := by
  have : c.val ≠ d.val := fun e => h (Fin.ext e.symm)
  simp [State.setCor, State.cor, this]

@[simp] theorem modCor_cor_same (c : CoreId) (f : Core → Core) : (s.modCor c f).cor c = f (s.cor c) := by
  simp [State.modCor]

@[simp] theorem modCor_cor_other {c d : CoreId} (f : Core → Core) (h : d ≠ c) : (s.modCor c f).cor d = s.cor d := by
  simp [State.modCor, h]

@[simp] theorem setThr_setThr (t : ThreadId) (x y : Thread) : (s.setThr t x).setThr t y = s.setThr t y := by
  simp [State.setThr]

@[simp] theorem setCor_setCor (c : CoreId) (x y : Core) : (s.setCor c x).setCor c y = s.setCor c y := by
  simp [State.setCor]

theorem modThr_modThr (t : ThreadId) (f g : Thread → Thread) : (s.modThr t f).modThr t g = s.modThr t (g ∘ f) := by
  simp [State.modThr]

/-! ### setThr -/

@[simp] theorem setThr_cores (t : ThreadId) (x : Thread) : (s.setThr t x).cores = s.cores := rfl
@[simp] theorem setThr_mem (t : ThreadId) (x : Thread) : (s.setThr t x).mem = s.mem := rfl
@[simp] theorem setThr_sprog (t : ThreadId) (x : Thread) : (s.setThr t x).sprog = s.sprog := rfl
@[simp] theorem setThr_node (t : ThreadId) (x : Thread) : (s.setThr t x).node = s.node := rfl
@[simp] theorem setThr_pins (t : ThreadId) (x : Thread) : (s.setThr t x).pins = s.pins := rfl
@[simp] theorem setThr_profIdx (t : ThreadId) (x : Thread) : (s.setThr t x).profIdx = s.profIdx := rfl
@[simp] theorem setThr_profile (t : ThreadId) (x : Thread) : (s.setThr t x).profile = s.profile := rfl
@[simp] theorem setThr_tk (t : ThreadId) (x : Thread) : (s.setThr t x).tk = s.tk := rfl
@[simp] theorem setThr_tic (t : ThreadId) (x : Thread) : (s.setThr t x).tic = s.tic := rfl
@[simp] theorem setThr_ecc (t : ThreadId) (x : Thread) : (s.setThr t x).ecc = s.ecc := rfl
@[simp] theorem setThr_knl (t : ThreadId) (x : Thread) : (s.setThr t x).knl = s.knl := rfl
@[simp] theorem setThr_ks (t : ThreadId) (x : Thread) : (s.setThr t x).ks = s.ks := rfl
@[simp] theorem setThr_fab (t : ThreadId) (x : Thread) : (s.setThr t x).fab = s.fab := rfl
@[simp] theorem setThr_ownq (t : ThreadId) (x : Thread) : (s.setThr t x).ownq = s.ownq := rfl
@[simp] theorem setThr_ownWait (t : ThreadId) (x : Thread) : (s.setThr t x).ownWait = s.ownWait := rfl
@[simp] theorem setThr_fetch (t : ThreadId) (x : Thread) : (s.setThr t x).fetch = s.fetch := rfl
@[simp] theorem setThr_heel (t : ThreadId) (x : Thread) : (s.setThr t x).heel = s.heel := rfl
@[simp] theorem setThr_help (t : ThreadId) (x : Thread) : (s.setThr t x).help = s.help := rfl
@[simp] theorem setThr_gates (t : ThreadId) (x : Thread) : (s.setThr t x).gates = s.gates := rfl
@[simp] theorem setThr_pwr (t : ThreadId) (x : Thread) : (s.setThr t x).pwr = s.pwr := rfl
@[simp] theorem setThr_grace (t : ThreadId) (x : Thread) : (s.setThr t x).grace = s.grace := rfl
@[simp] theorem setThr_dbg (t : ThreadId) (x : Thread) : (s.setThr t x).dbg = s.dbg := rfl
@[simp] theorem setThr_whi (t : ThreadId) (x : Thread) : (s.setThr t x).whi = s.whi := rfl
@[simp] theorem setThr_lc (t : ThreadId) (x : Thread) : (s.setThr t x).lc = s.lc := rfl
@[simp] theorem setThr_boot (t : ThreadId) (x : Thread) : (s.setThr t x).boot = s.boot := rfl
@[simp] theorem setThr_held (t : ThreadId) (x : Thread) : (s.setThr t x).held = s.held := rfl
@[simp] theorem setThr_ports (t : ThreadId) (x : Thread) : (s.setThr t x).ports = s.ports := rfl
@[simp] theorem setThr_epoch (t : ThreadId) (x : Thread) : (s.setThr t x).epoch = s.epoch := rfl
@[simp] theorem setThr_freeCtr (t : ThreadId) (x : Thread) : (s.setThr t x).freeCtr = s.freeCtr := rfl
@[simp] theorem setThr_pending (t : ThreadId) (x : Thread) : (s.setThr t x).pending = s.pending := rfl
@[simp] theorem setThr_cor (t : ThreadId) (x : Thread) (c : CoreId) : (s.setThr t x).cor c = s.cor c := rfl
@[simp] theorem setThr_src (t : ThreadId) (x : Thread) (j : Nat) : (s.setThr t x).src j = s.src j := rfl

/-! ### modThr -/

@[simp] theorem modThr_cores (t : ThreadId) (f : Thread → Thread) : (s.modThr t f).cores = s.cores := rfl
@[simp] theorem modThr_mem (t : ThreadId) (f : Thread → Thread) : (s.modThr t f).mem = s.mem := rfl
@[simp] theorem modThr_sprog (t : ThreadId) (f : Thread → Thread) : (s.modThr t f).sprog = s.sprog := rfl
@[simp] theorem modThr_node (t : ThreadId) (f : Thread → Thread) : (s.modThr t f).node = s.node := rfl
@[simp] theorem modThr_pins (t : ThreadId) (f : Thread → Thread) : (s.modThr t f).pins = s.pins := rfl
@[simp] theorem modThr_profIdx (t : ThreadId) (f : Thread → Thread) : (s.modThr t f).profIdx = s.profIdx := rfl
@[simp] theorem modThr_profile (t : ThreadId) (f : Thread → Thread) : (s.modThr t f).profile = s.profile := rfl
@[simp] theorem modThr_tk (t : ThreadId) (f : Thread → Thread) : (s.modThr t f).tk = s.tk := rfl
@[simp] theorem modThr_tic (t : ThreadId) (f : Thread → Thread) : (s.modThr t f).tic = s.tic := rfl
@[simp] theorem modThr_ecc (t : ThreadId) (f : Thread → Thread) : (s.modThr t f).ecc = s.ecc := rfl
@[simp] theorem modThr_knl (t : ThreadId) (f : Thread → Thread) : (s.modThr t f).knl = s.knl := rfl
@[simp] theorem modThr_ks (t : ThreadId) (f : Thread → Thread) : (s.modThr t f).ks = s.ks := rfl
@[simp] theorem modThr_fab (t : ThreadId) (f : Thread → Thread) : (s.modThr t f).fab = s.fab := rfl
@[simp] theorem modThr_ownq (t : ThreadId) (f : Thread → Thread) : (s.modThr t f).ownq = s.ownq := rfl
@[simp] theorem modThr_ownWait (t : ThreadId) (f : Thread → Thread) : (s.modThr t f).ownWait = s.ownWait := rfl
@[simp] theorem modThr_fetch (t : ThreadId) (f : Thread → Thread) : (s.modThr t f).fetch = s.fetch := rfl
@[simp] theorem modThr_heel (t : ThreadId) (f : Thread → Thread) : (s.modThr t f).heel = s.heel := rfl
@[simp] theorem modThr_help (t : ThreadId) (f : Thread → Thread) : (s.modThr t f).help = s.help := rfl
@[simp] theorem modThr_gates (t : ThreadId) (f : Thread → Thread) : (s.modThr t f).gates = s.gates := rfl
@[simp] theorem modThr_pwr (t : ThreadId) (f : Thread → Thread) : (s.modThr t f).pwr = s.pwr := rfl
@[simp] theorem modThr_grace (t : ThreadId) (f : Thread → Thread) : (s.modThr t f).grace = s.grace := rfl
@[simp] theorem modThr_dbg (t : ThreadId) (f : Thread → Thread) : (s.modThr t f).dbg = s.dbg := rfl
@[simp] theorem modThr_whi (t : ThreadId) (f : Thread → Thread) : (s.modThr t f).whi = s.whi := rfl
@[simp] theorem modThr_lc (t : ThreadId) (f : Thread → Thread) : (s.modThr t f).lc = s.lc := rfl
@[simp] theorem modThr_boot (t : ThreadId) (f : Thread → Thread) : (s.modThr t f).boot = s.boot := rfl
@[simp] theorem modThr_held (t : ThreadId) (f : Thread → Thread) : (s.modThr t f).held = s.held := rfl
@[simp] theorem modThr_ports (t : ThreadId) (f : Thread → Thread) : (s.modThr t f).ports = s.ports := rfl
@[simp] theorem modThr_epoch (t : ThreadId) (f : Thread → Thread) : (s.modThr t f).epoch = s.epoch := rfl
@[simp] theorem modThr_freeCtr (t : ThreadId) (f : Thread → Thread) : (s.modThr t f).freeCtr = s.freeCtr := rfl
@[simp] theorem modThr_pending (t : ThreadId) (f : Thread → Thread) : (s.modThr t f).pending = s.pending := rfl
@[simp] theorem modThr_cor (t : ThreadId) (f : Thread → Thread) (c : CoreId) : (s.modThr t f).cor c = s.cor c := rfl
@[simp] theorem modThr_src (t : ThreadId) (f : Thread → Thread) (j : Nat) : (s.modThr t f).src j = s.src j := rfl

/-! ### modArch -/

@[simp] theorem modArch_cores (t : ThreadId) (f : Arch → Arch) : (s.modArch t f).cores = s.cores := rfl
@[simp] theorem modArch_mem (t : ThreadId) (f : Arch → Arch) : (s.modArch t f).mem = s.mem := rfl
@[simp] theorem modArch_sprog (t : ThreadId) (f : Arch → Arch) : (s.modArch t f).sprog = s.sprog := rfl
@[simp] theorem modArch_node (t : ThreadId) (f : Arch → Arch) : (s.modArch t f).node = s.node := rfl
@[simp] theorem modArch_pins (t : ThreadId) (f : Arch → Arch) : (s.modArch t f).pins = s.pins := rfl
@[simp] theorem modArch_profIdx (t : ThreadId) (f : Arch → Arch) : (s.modArch t f).profIdx = s.profIdx := rfl
@[simp] theorem modArch_profile (t : ThreadId) (f : Arch → Arch) : (s.modArch t f).profile = s.profile := rfl
@[simp] theorem modArch_tk (t : ThreadId) (f : Arch → Arch) : (s.modArch t f).tk = s.tk := rfl
@[simp] theorem modArch_tic (t : ThreadId) (f : Arch → Arch) : (s.modArch t f).tic = s.tic := rfl
@[simp] theorem modArch_ecc (t : ThreadId) (f : Arch → Arch) : (s.modArch t f).ecc = s.ecc := rfl
@[simp] theorem modArch_knl (t : ThreadId) (f : Arch → Arch) : (s.modArch t f).knl = s.knl := rfl
@[simp] theorem modArch_ks (t : ThreadId) (f : Arch → Arch) : (s.modArch t f).ks = s.ks := rfl
@[simp] theorem modArch_fab (t : ThreadId) (f : Arch → Arch) : (s.modArch t f).fab = s.fab := rfl
@[simp] theorem modArch_ownq (t : ThreadId) (f : Arch → Arch) : (s.modArch t f).ownq = s.ownq := rfl
@[simp] theorem modArch_ownWait (t : ThreadId) (f : Arch → Arch) : (s.modArch t f).ownWait = s.ownWait := rfl
@[simp] theorem modArch_fetch (t : ThreadId) (f : Arch → Arch) : (s.modArch t f).fetch = s.fetch := rfl
@[simp] theorem modArch_heel (t : ThreadId) (f : Arch → Arch) : (s.modArch t f).heel = s.heel := rfl
@[simp] theorem modArch_help (t : ThreadId) (f : Arch → Arch) : (s.modArch t f).help = s.help := rfl
@[simp] theorem modArch_gates (t : ThreadId) (f : Arch → Arch) : (s.modArch t f).gates = s.gates := rfl
@[simp] theorem modArch_pwr (t : ThreadId) (f : Arch → Arch) : (s.modArch t f).pwr = s.pwr := rfl
@[simp] theorem modArch_grace (t : ThreadId) (f : Arch → Arch) : (s.modArch t f).grace = s.grace := rfl
@[simp] theorem modArch_dbg (t : ThreadId) (f : Arch → Arch) : (s.modArch t f).dbg = s.dbg := rfl
@[simp] theorem modArch_whi (t : ThreadId) (f : Arch → Arch) : (s.modArch t f).whi = s.whi := rfl
@[simp] theorem modArch_lc (t : ThreadId) (f : Arch → Arch) : (s.modArch t f).lc = s.lc := rfl
@[simp] theorem modArch_boot (t : ThreadId) (f : Arch → Arch) : (s.modArch t f).boot = s.boot := rfl
@[simp] theorem modArch_held (t : ThreadId) (f : Arch → Arch) : (s.modArch t f).held = s.held := rfl
@[simp] theorem modArch_ports (t : ThreadId) (f : Arch → Arch) : (s.modArch t f).ports = s.ports := rfl
@[simp] theorem modArch_epoch (t : ThreadId) (f : Arch → Arch) : (s.modArch t f).epoch = s.epoch := rfl
@[simp] theorem modArch_freeCtr (t : ThreadId) (f : Arch → Arch) : (s.modArch t f).freeCtr = s.freeCtr := rfl
@[simp] theorem modArch_pending (t : ThreadId) (f : Arch → Arch) : (s.modArch t f).pending = s.pending := rfl
@[simp] theorem modArch_cor (t : ThreadId) (f : Arch → Arch) (c : CoreId) : (s.modArch t f).cor c = s.cor c := rfl
@[simp] theorem modArch_src (t : ThreadId) (f : Arch → Arch) (j : Nat) : (s.modArch t f).src j = s.src j := rfl

/-! ### setStk -/

@[simp] theorem setStk_cores (t : ThreadId) (l : Level) (rs : Bool) (k : Stk) : (s.setStk t l rs k).cores = s.cores := rfl
@[simp] theorem setStk_mem (t : ThreadId) (l : Level) (rs : Bool) (k : Stk) : (s.setStk t l rs k).mem = s.mem := rfl
@[simp] theorem setStk_sprog (t : ThreadId) (l : Level) (rs : Bool) (k : Stk) : (s.setStk t l rs k).sprog = s.sprog := rfl
@[simp] theorem setStk_node (t : ThreadId) (l : Level) (rs : Bool) (k : Stk) : (s.setStk t l rs k).node = s.node := rfl
@[simp] theorem setStk_pins (t : ThreadId) (l : Level) (rs : Bool) (k : Stk) : (s.setStk t l rs k).pins = s.pins := rfl
@[simp] theorem setStk_profIdx (t : ThreadId) (l : Level) (rs : Bool) (k : Stk) : (s.setStk t l rs k).profIdx = s.profIdx := rfl
@[simp] theorem setStk_profile (t : ThreadId) (l : Level) (rs : Bool) (k : Stk) : (s.setStk t l rs k).profile = s.profile := rfl
@[simp] theorem setStk_tk (t : ThreadId) (l : Level) (rs : Bool) (k : Stk) : (s.setStk t l rs k).tk = s.tk := rfl
@[simp] theorem setStk_tic (t : ThreadId) (l : Level) (rs : Bool) (k : Stk) : (s.setStk t l rs k).tic = s.tic := rfl
@[simp] theorem setStk_ecc (t : ThreadId) (l : Level) (rs : Bool) (k : Stk) : (s.setStk t l rs k).ecc = s.ecc := rfl
@[simp] theorem setStk_knl (t : ThreadId) (l : Level) (rs : Bool) (k : Stk) : (s.setStk t l rs k).knl = s.knl := rfl
@[simp] theorem setStk_ks (t : ThreadId) (l : Level) (rs : Bool) (k : Stk) : (s.setStk t l rs k).ks = s.ks := rfl
@[simp] theorem setStk_fab (t : ThreadId) (l : Level) (rs : Bool) (k : Stk) : (s.setStk t l rs k).fab = s.fab := rfl
@[simp] theorem setStk_ownq (t : ThreadId) (l : Level) (rs : Bool) (k : Stk) : (s.setStk t l rs k).ownq = s.ownq := rfl
@[simp] theorem setStk_ownWait (t : ThreadId) (l : Level) (rs : Bool) (k : Stk) : (s.setStk t l rs k).ownWait = s.ownWait := rfl
@[simp] theorem setStk_fetch (t : ThreadId) (l : Level) (rs : Bool) (k : Stk) : (s.setStk t l rs k).fetch = s.fetch := rfl
@[simp] theorem setStk_heel (t : ThreadId) (l : Level) (rs : Bool) (k : Stk) : (s.setStk t l rs k).heel = s.heel := rfl
@[simp] theorem setStk_help (t : ThreadId) (l : Level) (rs : Bool) (k : Stk) : (s.setStk t l rs k).help = s.help := rfl
@[simp] theorem setStk_gates (t : ThreadId) (l : Level) (rs : Bool) (k : Stk) : (s.setStk t l rs k).gates = s.gates := rfl
@[simp] theorem setStk_pwr (t : ThreadId) (l : Level) (rs : Bool) (k : Stk) : (s.setStk t l rs k).pwr = s.pwr := rfl
@[simp] theorem setStk_grace (t : ThreadId) (l : Level) (rs : Bool) (k : Stk) : (s.setStk t l rs k).grace = s.grace := rfl
@[simp] theorem setStk_dbg (t : ThreadId) (l : Level) (rs : Bool) (k : Stk) : (s.setStk t l rs k).dbg = s.dbg := rfl
@[simp] theorem setStk_whi (t : ThreadId) (l : Level) (rs : Bool) (k : Stk) : (s.setStk t l rs k).whi = s.whi := rfl
@[simp] theorem setStk_lc (t : ThreadId) (l : Level) (rs : Bool) (k : Stk) : (s.setStk t l rs k).lc = s.lc := rfl
@[simp] theorem setStk_boot (t : ThreadId) (l : Level) (rs : Bool) (k : Stk) : (s.setStk t l rs k).boot = s.boot := rfl
@[simp] theorem setStk_held (t : ThreadId) (l : Level) (rs : Bool) (k : Stk) : (s.setStk t l rs k).held = s.held := rfl
@[simp] theorem setStk_ports (t : ThreadId) (l : Level) (rs : Bool) (k : Stk) : (s.setStk t l rs k).ports = s.ports := rfl
@[simp] theorem setStk_epoch (t : ThreadId) (l : Level) (rs : Bool) (k : Stk) : (s.setStk t l rs k).epoch = s.epoch := rfl
@[simp] theorem setStk_freeCtr (t : ThreadId) (l : Level) (rs : Bool) (k : Stk) : (s.setStk t l rs k).freeCtr = s.freeCtr := rfl
@[simp] theorem setStk_pending (t : ThreadId) (l : Level) (rs : Bool) (k : Stk) : (s.setStk t l rs k).pending = s.pending := rfl
@[simp] theorem setStk_cor (t : ThreadId) (l : Level) (rs : Bool) (k : Stk) (c : CoreId) : (s.setStk t l rs k).cor c = s.cor c := rfl
@[simp] theorem setStk_src (t : ThreadId) (l : Level) (rs : Bool) (k : Stk) (j : Nat) : (s.setStk t l rs k).src j = s.src j := rfl

/-! ### mapThreads -/

@[simp] theorem mapThreads_cores (f : Thread → Thread) : (s.mapThreads f).cores = s.cores := rfl
@[simp] theorem mapThreads_mem (f : Thread → Thread) : (s.mapThreads f).mem = s.mem := rfl
@[simp] theorem mapThreads_sprog (f : Thread → Thread) : (s.mapThreads f).sprog = s.sprog := rfl
@[simp] theorem mapThreads_node (f : Thread → Thread) : (s.mapThreads f).node = s.node := rfl
@[simp] theorem mapThreads_pins (f : Thread → Thread) : (s.mapThreads f).pins = s.pins := rfl
@[simp] theorem mapThreads_profIdx (f : Thread → Thread) : (s.mapThreads f).profIdx = s.profIdx := rfl
@[simp] theorem mapThreads_profile (f : Thread → Thread) : (s.mapThreads f).profile = s.profile := rfl
@[simp] theorem mapThreads_tk (f : Thread → Thread) : (s.mapThreads f).tk = s.tk := rfl
@[simp] theorem mapThreads_tic (f : Thread → Thread) : (s.mapThreads f).tic = s.tic := rfl
@[simp] theorem mapThreads_ecc (f : Thread → Thread) : (s.mapThreads f).ecc = s.ecc := rfl
@[simp] theorem mapThreads_knl (f : Thread → Thread) : (s.mapThreads f).knl = s.knl := rfl
@[simp] theorem mapThreads_ks (f : Thread → Thread) : (s.mapThreads f).ks = s.ks := rfl
@[simp] theorem mapThreads_fab (f : Thread → Thread) : (s.mapThreads f).fab = s.fab := rfl
@[simp] theorem mapThreads_ownq (f : Thread → Thread) : (s.mapThreads f).ownq = s.ownq := rfl
@[simp] theorem mapThreads_ownWait (f : Thread → Thread) : (s.mapThreads f).ownWait = s.ownWait := rfl
@[simp] theorem mapThreads_fetch (f : Thread → Thread) : (s.mapThreads f).fetch = s.fetch := rfl
@[simp] theorem mapThreads_heel (f : Thread → Thread) : (s.mapThreads f).heel = s.heel := rfl
@[simp] theorem mapThreads_help (f : Thread → Thread) : (s.mapThreads f).help = s.help := rfl
@[simp] theorem mapThreads_gates (f : Thread → Thread) : (s.mapThreads f).gates = s.gates := rfl
@[simp] theorem mapThreads_pwr (f : Thread → Thread) : (s.mapThreads f).pwr = s.pwr := rfl
@[simp] theorem mapThreads_grace (f : Thread → Thread) : (s.mapThreads f).grace = s.grace := rfl
@[simp] theorem mapThreads_dbg (f : Thread → Thread) : (s.mapThreads f).dbg = s.dbg := rfl
@[simp] theorem mapThreads_whi (f : Thread → Thread) : (s.mapThreads f).whi = s.whi := rfl
@[simp] theorem mapThreads_lc (f : Thread → Thread) : (s.mapThreads f).lc = s.lc := rfl
@[simp] theorem mapThreads_boot (f : Thread → Thread) : (s.mapThreads f).boot = s.boot := rfl
@[simp] theorem mapThreads_held (f : Thread → Thread) : (s.mapThreads f).held = s.held := rfl
@[simp] theorem mapThreads_ports (f : Thread → Thread) : (s.mapThreads f).ports = s.ports := rfl
@[simp] theorem mapThreads_epoch (f : Thread → Thread) : (s.mapThreads f).epoch = s.epoch := rfl
@[simp] theorem mapThreads_freeCtr (f : Thread → Thread) : (s.mapThreads f).freeCtr = s.freeCtr := rfl
@[simp] theorem mapThreads_pending (f : Thread → Thread) : (s.mapThreads f).pending = s.pending := rfl
@[simp] theorem mapThreads_cor (f : Thread → Thread) (c : CoreId) : (s.mapThreads f).cor c = s.cor c := rfl
@[simp] theorem mapThreads_src (f : Thread → Thread) (j : Nat) : (s.mapThreads f).src j = s.src j := rfl

/-! ### setCor -/

@[simp] theorem setCor_threads (c : CoreId) (x : Core) : (s.setCor c x).threads = s.threads := rfl
@[simp] theorem setCor_mem (c : CoreId) (x : Core) : (s.setCor c x).mem = s.mem := rfl
@[simp] theorem setCor_sprog (c : CoreId) (x : Core) : (s.setCor c x).sprog = s.sprog := rfl
@[simp] theorem setCor_node (c : CoreId) (x : Core) : (s.setCor c x).node = s.node := rfl
@[simp] theorem setCor_pins (c : CoreId) (x : Core) : (s.setCor c x).pins = s.pins := rfl
@[simp] theorem setCor_profIdx (c : CoreId) (x : Core) : (s.setCor c x).profIdx = s.profIdx := rfl
@[simp] theorem setCor_profile (c : CoreId) (x : Core) : (s.setCor c x).profile = s.profile := rfl
@[simp] theorem setCor_tk (c : CoreId) (x : Core) : (s.setCor c x).tk = s.tk := rfl
@[simp] theorem setCor_tic (c : CoreId) (x : Core) : (s.setCor c x).tic = s.tic := rfl
@[simp] theorem setCor_ecc (c : CoreId) (x : Core) : (s.setCor c x).ecc = s.ecc := rfl
@[simp] theorem setCor_knl (c : CoreId) (x : Core) : (s.setCor c x).knl = s.knl := rfl
@[simp] theorem setCor_ks (c : CoreId) (x : Core) : (s.setCor c x).ks = s.ks := rfl
@[simp] theorem setCor_fab (c : CoreId) (x : Core) : (s.setCor c x).fab = s.fab := rfl
@[simp] theorem setCor_ownq (c : CoreId) (x : Core) : (s.setCor c x).ownq = s.ownq := rfl
@[simp] theorem setCor_ownWait (c : CoreId) (x : Core) : (s.setCor c x).ownWait = s.ownWait := rfl
@[simp] theorem setCor_fetch (c : CoreId) (x : Core) : (s.setCor c x).fetch = s.fetch := rfl
@[simp] theorem setCor_heel (c : CoreId) (x : Core) : (s.setCor c x).heel = s.heel := rfl
@[simp] theorem setCor_help (c : CoreId) (x : Core) : (s.setCor c x).help = s.help := rfl
@[simp] theorem setCor_gates (c : CoreId) (x : Core) : (s.setCor c x).gates = s.gates := rfl
@[simp] theorem setCor_pwr (c : CoreId) (x : Core) : (s.setCor c x).pwr = s.pwr := rfl
@[simp] theorem setCor_grace (c : CoreId) (x : Core) : (s.setCor c x).grace = s.grace := rfl
@[simp] theorem setCor_dbg (c : CoreId) (x : Core) : (s.setCor c x).dbg = s.dbg := rfl
@[simp] theorem setCor_whi (c : CoreId) (x : Core) : (s.setCor c x).whi = s.whi := rfl
@[simp] theorem setCor_lc (c : CoreId) (x : Core) : (s.setCor c x).lc = s.lc := rfl
@[simp] theorem setCor_boot (c : CoreId) (x : Core) : (s.setCor c x).boot = s.boot := rfl
@[simp] theorem setCor_held (c : CoreId) (x : Core) : (s.setCor c x).held = s.held := rfl
@[simp] theorem setCor_ports (c : CoreId) (x : Core) : (s.setCor c x).ports = s.ports := rfl
@[simp] theorem setCor_epoch (c : CoreId) (x : Core) : (s.setCor c x).epoch = s.epoch := rfl
@[simp] theorem setCor_freeCtr (c : CoreId) (x : Core) : (s.setCor c x).freeCtr = s.freeCtr := rfl
@[simp] theorem setCor_pending (c : CoreId) (x : Core) : (s.setCor c x).pending = s.pending := rfl
@[simp] theorem setCor_thr (c : CoreId) (x : Core) (u : ThreadId) : (s.setCor c x).thr u = s.thr u := rfl

/-! ### modCor -/

@[simp] theorem modCor_threads (c : CoreId) (f : Core → Core) : (s.modCor c f).threads = s.threads := rfl
@[simp] theorem modCor_mem (c : CoreId) (f : Core → Core) : (s.modCor c f).mem = s.mem := rfl
@[simp] theorem modCor_sprog (c : CoreId) (f : Core → Core) : (s.modCor c f).sprog = s.sprog := rfl
@[simp] theorem modCor_node (c : CoreId) (f : Core → Core) : (s.modCor c f).node = s.node := rfl
@[simp] theorem modCor_pins (c : CoreId) (f : Core → Core) : (s.modCor c f).pins = s.pins := rfl
@[simp] theorem modCor_profIdx (c : CoreId) (f : Core → Core) : (s.modCor c f).profIdx = s.profIdx := rfl
@[simp] theorem modCor_profile (c : CoreId) (f : Core → Core) : (s.modCor c f).profile = s.profile := rfl
@[simp] theorem modCor_tk (c : CoreId) (f : Core → Core) : (s.modCor c f).tk = s.tk := rfl
@[simp] theorem modCor_tic (c : CoreId) (f : Core → Core) : (s.modCor c f).tic = s.tic := rfl
@[simp] theorem modCor_ecc (c : CoreId) (f : Core → Core) : (s.modCor c f).ecc = s.ecc := rfl
@[simp] theorem modCor_knl (c : CoreId) (f : Core → Core) : (s.modCor c f).knl = s.knl := rfl
@[simp] theorem modCor_ks (c : CoreId) (f : Core → Core) : (s.modCor c f).ks = s.ks := rfl
@[simp] theorem modCor_fab (c : CoreId) (f : Core → Core) : (s.modCor c f).fab = s.fab := rfl
@[simp] theorem modCor_ownq (c : CoreId) (f : Core → Core) : (s.modCor c f).ownq = s.ownq := rfl
@[simp] theorem modCor_ownWait (c : CoreId) (f : Core → Core) : (s.modCor c f).ownWait = s.ownWait := rfl
@[simp] theorem modCor_fetch (c : CoreId) (f : Core → Core) : (s.modCor c f).fetch = s.fetch := rfl
@[simp] theorem modCor_heel (c : CoreId) (f : Core → Core) : (s.modCor c f).heel = s.heel := rfl
@[simp] theorem modCor_help (c : CoreId) (f : Core → Core) : (s.modCor c f).help = s.help := rfl
@[simp] theorem modCor_gates (c : CoreId) (f : Core → Core) : (s.modCor c f).gates = s.gates := rfl
@[simp] theorem modCor_pwr (c : CoreId) (f : Core → Core) : (s.modCor c f).pwr = s.pwr := rfl
@[simp] theorem modCor_grace (c : CoreId) (f : Core → Core) : (s.modCor c f).grace = s.grace := rfl
@[simp] theorem modCor_dbg (c : CoreId) (f : Core → Core) : (s.modCor c f).dbg = s.dbg := rfl
@[simp] theorem modCor_whi (c : CoreId) (f : Core → Core) : (s.modCor c f).whi = s.whi := rfl
@[simp] theorem modCor_lc (c : CoreId) (f : Core → Core) : (s.modCor c f).lc = s.lc := rfl
@[simp] theorem modCor_boot (c : CoreId) (f : Core → Core) : (s.modCor c f).boot = s.boot := rfl
@[simp] theorem modCor_held (c : CoreId) (f : Core → Core) : (s.modCor c f).held = s.held := rfl
@[simp] theorem modCor_ports (c : CoreId) (f : Core → Core) : (s.modCor c f).ports = s.ports := rfl
@[simp] theorem modCor_epoch (c : CoreId) (f : Core → Core) : (s.modCor c f).epoch = s.epoch := rfl
@[simp] theorem modCor_freeCtr (c : CoreId) (f : Core → Core) : (s.modCor c f).freeCtr = s.freeCtr := rfl
@[simp] theorem modCor_pending (c : CoreId) (f : Core → Core) : (s.modCor c f).pending = s.pending := rfl
@[simp] theorem modCor_thr (c : CoreId) (f : Core → Core) (u : ThreadId) : (s.modCor c f).thr u = s.thr u := rfl

/-! ### setSrc -/

@[simp] theorem setSrc_threads (i : Nat) (x : Src) : (s.setSrc i x).threads = s.threads := rfl
@[simp] theorem setSrc_cores (i : Nat) (x : Src) : (s.setSrc i x).cores = s.cores := rfl
@[simp] theorem setSrc_mem (i : Nat) (x : Src) : (s.setSrc i x).mem = s.mem := rfl
@[simp] theorem setSrc_sprog (i : Nat) (x : Src) : (s.setSrc i x).sprog = s.sprog := rfl
@[simp] theorem setSrc_node (i : Nat) (x : Src) : (s.setSrc i x).node = s.node := rfl
@[simp] theorem setSrc_pins (i : Nat) (x : Src) : (s.setSrc i x).pins = s.pins := rfl
@[simp] theorem setSrc_profIdx (i : Nat) (x : Src) : (s.setSrc i x).profIdx = s.profIdx := rfl
@[simp] theorem setSrc_profile (i : Nat) (x : Src) : (s.setSrc i x).profile = s.profile := rfl
@[simp] theorem setSrc_tk (i : Nat) (x : Src) : (s.setSrc i x).tk = s.tk := rfl
@[simp] theorem setSrc_ecc (i : Nat) (x : Src) : (s.setSrc i x).ecc = s.ecc := rfl
@[simp] theorem setSrc_knl (i : Nat) (x : Src) : (s.setSrc i x).knl = s.knl := rfl
@[simp] theorem setSrc_ks (i : Nat) (x : Src) : (s.setSrc i x).ks = s.ks := rfl
@[simp] theorem setSrc_fab (i : Nat) (x : Src) : (s.setSrc i x).fab = s.fab := rfl
@[simp] theorem setSrc_ownq (i : Nat) (x : Src) : (s.setSrc i x).ownq = s.ownq := rfl
@[simp] theorem setSrc_ownWait (i : Nat) (x : Src) : (s.setSrc i x).ownWait = s.ownWait := rfl
@[simp] theorem setSrc_fetch (i : Nat) (x : Src) : (s.setSrc i x).fetch = s.fetch := rfl
@[simp] theorem setSrc_heel (i : Nat) (x : Src) : (s.setSrc i x).heel = s.heel := rfl
@[simp] theorem setSrc_help (i : Nat) (x : Src) : (s.setSrc i x).help = s.help := rfl
@[simp] theorem setSrc_gates (i : Nat) (x : Src) : (s.setSrc i x).gates = s.gates := rfl
@[simp] theorem setSrc_pwr (i : Nat) (x : Src) : (s.setSrc i x).pwr = s.pwr := rfl
@[simp] theorem setSrc_grace (i : Nat) (x : Src) : (s.setSrc i x).grace = s.grace := rfl
@[simp] theorem setSrc_dbg (i : Nat) (x : Src) : (s.setSrc i x).dbg = s.dbg := rfl
@[simp] theorem setSrc_whi (i : Nat) (x : Src) : (s.setSrc i x).whi = s.whi := rfl
@[simp] theorem setSrc_lc (i : Nat) (x : Src) : (s.setSrc i x).lc = s.lc := rfl
@[simp] theorem setSrc_boot (i : Nat) (x : Src) : (s.setSrc i x).boot = s.boot := rfl
@[simp] theorem setSrc_held (i : Nat) (x : Src) : (s.setSrc i x).held = s.held := rfl
@[simp] theorem setSrc_ports (i : Nat) (x : Src) : (s.setSrc i x).ports = s.ports := rfl
@[simp] theorem setSrc_epoch (i : Nat) (x : Src) : (s.setSrc i x).epoch = s.epoch := rfl
@[simp] theorem setSrc_freeCtr (i : Nat) (x : Src) : (s.setSrc i x).freeCtr = s.freeCtr := rfl
@[simp] theorem setSrc_pending (i : Nat) (x : Src) : (s.setSrc i x).pending = s.pending := rfl
@[simp] theorem setSrc_thr (i : Nat) (x : Src) (u : ThreadId) : (s.setSrc i x).thr u = s.thr u := rfl
@[simp] theorem setSrc_cor (i : Nat) (x : Src) (c : CoreId) : (s.setSrc i x).cor c = s.cor c := rfl

/-! ### setFlow -/

@[simp] theorem setFlow_threads (i : BitVec 16) (x : Flow) : (s.setFlow i x).threads = s.threads := rfl
@[simp] theorem setFlow_cores (i : BitVec 16) (x : Flow) : (s.setFlow i x).cores = s.cores := rfl
@[simp] theorem setFlow_mem (i : BitVec 16) (x : Flow) : (s.setFlow i x).mem = s.mem := rfl
@[simp] theorem setFlow_sprog (i : BitVec 16) (x : Flow) : (s.setFlow i x).sprog = s.sprog := rfl
@[simp] theorem setFlow_node (i : BitVec 16) (x : Flow) : (s.setFlow i x).node = s.node := rfl
@[simp] theorem setFlow_pins (i : BitVec 16) (x : Flow) : (s.setFlow i x).pins = s.pins := rfl
@[simp] theorem setFlow_profIdx (i : BitVec 16) (x : Flow) : (s.setFlow i x).profIdx = s.profIdx := rfl
@[simp] theorem setFlow_profile (i : BitVec 16) (x : Flow) : (s.setFlow i x).profile = s.profile := rfl
@[simp] theorem setFlow_tk (i : BitVec 16) (x : Flow) : (s.setFlow i x).tk = s.tk := rfl
@[simp] theorem setFlow_tic (i : BitVec 16) (x : Flow) : (s.setFlow i x).tic = s.tic := rfl
@[simp] theorem setFlow_ecc (i : BitVec 16) (x : Flow) : (s.setFlow i x).ecc = s.ecc := rfl
@[simp] theorem setFlow_knl (i : BitVec 16) (x : Flow) : (s.setFlow i x).knl = s.knl := rfl
@[simp] theorem setFlow_ks (i : BitVec 16) (x : Flow) : (s.setFlow i x).ks = s.ks := rfl
@[simp] theorem setFlow_fab (i : BitVec 16) (x : Flow) : (s.setFlow i x).fab = s.fab := rfl
@[simp] theorem setFlow_ownq (i : BitVec 16) (x : Flow) : (s.setFlow i x).ownq = s.ownq := rfl
@[simp] theorem setFlow_ownWait (i : BitVec 16) (x : Flow) : (s.setFlow i x).ownWait = s.ownWait := rfl
@[simp] theorem setFlow_fetch (i : BitVec 16) (x : Flow) : (s.setFlow i x).fetch = s.fetch := rfl
@[simp] theorem setFlow_help (i : BitVec 16) (x : Flow) : (s.setFlow i x).help = s.help := rfl
@[simp] theorem setFlow_gates (i : BitVec 16) (x : Flow) : (s.setFlow i x).gates = s.gates := rfl
@[simp] theorem setFlow_pwr (i : BitVec 16) (x : Flow) : (s.setFlow i x).pwr = s.pwr := rfl
@[simp] theorem setFlow_grace (i : BitVec 16) (x : Flow) : (s.setFlow i x).grace = s.grace := rfl
@[simp] theorem setFlow_dbg (i : BitVec 16) (x : Flow) : (s.setFlow i x).dbg = s.dbg := rfl
@[simp] theorem setFlow_whi (i : BitVec 16) (x : Flow) : (s.setFlow i x).whi = s.whi := rfl
@[simp] theorem setFlow_lc (i : BitVec 16) (x : Flow) : (s.setFlow i x).lc = s.lc := rfl
@[simp] theorem setFlow_boot (i : BitVec 16) (x : Flow) : (s.setFlow i x).boot = s.boot := rfl
@[simp] theorem setFlow_held (i : BitVec 16) (x : Flow) : (s.setFlow i x).held = s.held := rfl
@[simp] theorem setFlow_ports (i : BitVec 16) (x : Flow) : (s.setFlow i x).ports = s.ports := rfl
@[simp] theorem setFlow_epoch (i : BitVec 16) (x : Flow) : (s.setFlow i x).epoch = s.epoch := rfl
@[simp] theorem setFlow_freeCtr (i : BitVec 16) (x : Flow) : (s.setFlow i x).freeCtr = s.freeCtr := rfl
@[simp] theorem setFlow_pending (i : BitVec 16) (x : Flow) : (s.setFlow i x).pending = s.pending := rfl
@[simp] theorem setFlow_thr (i : BitVec 16) (x : Flow) (u : ThreadId) : (s.setFlow i x).thr u = s.thr u := rfl
@[simp] theorem setFlow_cor (i : BitVec 16) (x : Flow) (c : CoreId) : (s.setFlow i x).cor c = s.cor c := rfl

/-! ### putMem -/

@[simp] theorem putMem_threads (a : Nat) (b : StoredByte) : (putMem s a b).threads = s.threads := rfl
@[simp] theorem putMem_cores (a : Nat) (b : StoredByte) : (putMem s a b).cores = s.cores := rfl
@[simp] theorem putMem_sprog (a : Nat) (b : StoredByte) : (putMem s a b).sprog = s.sprog := rfl
@[simp] theorem putMem_node (a : Nat) (b : StoredByte) : (putMem s a b).node = s.node := rfl
@[simp] theorem putMem_pins (a : Nat) (b : StoredByte) : (putMem s a b).pins = s.pins := rfl
@[simp] theorem putMem_profIdx (a : Nat) (b : StoredByte) : (putMem s a b).profIdx = s.profIdx := rfl
@[simp] theorem putMem_profile (a : Nat) (b : StoredByte) : (putMem s a b).profile = s.profile := rfl
@[simp] theorem putMem_tk (a : Nat) (b : StoredByte) : (putMem s a b).tk = s.tk := rfl
@[simp] theorem putMem_tic (a : Nat) (b : StoredByte) : (putMem s a b).tic = s.tic := rfl
@[simp] theorem putMem_ecc (a : Nat) (b : StoredByte) : (putMem s a b).ecc = s.ecc := rfl
@[simp] theorem putMem_knl (a : Nat) (b : StoredByte) : (putMem s a b).knl = s.knl := rfl
@[simp] theorem putMem_ks (a : Nat) (b : StoredByte) : (putMem s a b).ks = s.ks := rfl
@[simp] theorem putMem_fab (a : Nat) (b : StoredByte) : (putMem s a b).fab = s.fab := rfl
@[simp] theorem putMem_ownq (a : Nat) (b : StoredByte) : (putMem s a b).ownq = s.ownq := rfl
@[simp] theorem putMem_ownWait (a : Nat) (b : StoredByte) : (putMem s a b).ownWait = s.ownWait := rfl
@[simp] theorem putMem_fetch (a : Nat) (b : StoredByte) : (putMem s a b).fetch = s.fetch := rfl
@[simp] theorem putMem_heel (a : Nat) (b : StoredByte) : (putMem s a b).heel = s.heel := rfl
@[simp] theorem putMem_help (a : Nat) (b : StoredByte) : (putMem s a b).help = s.help := rfl
@[simp] theorem putMem_gates (a : Nat) (b : StoredByte) : (putMem s a b).gates = s.gates := rfl
@[simp] theorem putMem_pwr (a : Nat) (b : StoredByte) : (putMem s a b).pwr = s.pwr := rfl
@[simp] theorem putMem_grace (a : Nat) (b : StoredByte) : (putMem s a b).grace = s.grace := rfl
@[simp] theorem putMem_dbg (a : Nat) (b : StoredByte) : (putMem s a b).dbg = s.dbg := rfl
@[simp] theorem putMem_whi (a : Nat) (b : StoredByte) : (putMem s a b).whi = s.whi := rfl
@[simp] theorem putMem_lc (a : Nat) (b : StoredByte) : (putMem s a b).lc = s.lc := rfl
@[simp] theorem putMem_boot (a : Nat) (b : StoredByte) : (putMem s a b).boot = s.boot := rfl
@[simp] theorem putMem_held (a : Nat) (b : StoredByte) : (putMem s a b).held = s.held := rfl
@[simp] theorem putMem_ports (a : Nat) (b : StoredByte) : (putMem s a b).ports = s.ports := rfl
@[simp] theorem putMem_epoch (a : Nat) (b : StoredByte) : (putMem s a b).epoch = s.epoch := rfl
@[simp] theorem putMem_freeCtr (a : Nat) (b : StoredByte) : (putMem s a b).freeCtr = s.freeCtr := rfl
@[simp] theorem putMem_pending (a : Nat) (b : StoredByte) : (putMem s a b).pending = s.pending := rfl
@[simp] theorem putMem_thr (a : Nat) (b : StoredByte) (u : ThreadId) : (putMem s a b).thr u = s.thr u := rfl
@[simp] theorem putMem_cor (a : Nat) (b : StoredByte) (c : CoreId) : (putMem s a b).cor c = s.cor c := rfl

/-! ### putBuf -/

@[simp] theorem putBuf_threads (c : CoreId) (off : Nat) (b : StoredByte) : (putBuf s c off b).threads = s.threads := rfl
@[simp] theorem putBuf_mem (c : CoreId) (off : Nat) (b : StoredByte) : (putBuf s c off b).mem = s.mem := rfl
@[simp] theorem putBuf_sprog (c : CoreId) (off : Nat) (b : StoredByte) : (putBuf s c off b).sprog = s.sprog := rfl
@[simp] theorem putBuf_node (c : CoreId) (off : Nat) (b : StoredByte) : (putBuf s c off b).node = s.node := rfl
@[simp] theorem putBuf_pins (c : CoreId) (off : Nat) (b : StoredByte) : (putBuf s c off b).pins = s.pins := rfl
@[simp] theorem putBuf_profIdx (c : CoreId) (off : Nat) (b : StoredByte) : (putBuf s c off b).profIdx = s.profIdx := rfl
@[simp] theorem putBuf_profile (c : CoreId) (off : Nat) (b : StoredByte) : (putBuf s c off b).profile = s.profile := rfl
@[simp] theorem putBuf_tk (c : CoreId) (off : Nat) (b : StoredByte) : (putBuf s c off b).tk = s.tk := rfl
@[simp] theorem putBuf_tic (c : CoreId) (off : Nat) (b : StoredByte) : (putBuf s c off b).tic = s.tic := rfl
@[simp] theorem putBuf_ecc (c : CoreId) (off : Nat) (b : StoredByte) : (putBuf s c off b).ecc = s.ecc := rfl
@[simp] theorem putBuf_knl (c : CoreId) (off : Nat) (b : StoredByte) : (putBuf s c off b).knl = s.knl := rfl
@[simp] theorem putBuf_ks (c : CoreId) (off : Nat) (b : StoredByte) : (putBuf s c off b).ks = s.ks := rfl
@[simp] theorem putBuf_fab (c : CoreId) (off : Nat) (b : StoredByte) : (putBuf s c off b).fab = s.fab := rfl
@[simp] theorem putBuf_ownq (c : CoreId) (off : Nat) (b : StoredByte) : (putBuf s c off b).ownq = s.ownq := rfl
@[simp] theorem putBuf_ownWait (c : CoreId) (off : Nat) (b : StoredByte) : (putBuf s c off b).ownWait = s.ownWait := rfl
@[simp] theorem putBuf_fetch (c : CoreId) (off : Nat) (b : StoredByte) : (putBuf s c off b).fetch = s.fetch := rfl
@[simp] theorem putBuf_heel (c : CoreId) (off : Nat) (b : StoredByte) : (putBuf s c off b).heel = s.heel := rfl
@[simp] theorem putBuf_help (c : CoreId) (off : Nat) (b : StoredByte) : (putBuf s c off b).help = s.help := rfl
@[simp] theorem putBuf_gates (c : CoreId) (off : Nat) (b : StoredByte) : (putBuf s c off b).gates = s.gates := rfl
@[simp] theorem putBuf_pwr (c : CoreId) (off : Nat) (b : StoredByte) : (putBuf s c off b).pwr = s.pwr := rfl
@[simp] theorem putBuf_grace (c : CoreId) (off : Nat) (b : StoredByte) : (putBuf s c off b).grace = s.grace := rfl
@[simp] theorem putBuf_dbg (c : CoreId) (off : Nat) (b : StoredByte) : (putBuf s c off b).dbg = s.dbg := rfl
@[simp] theorem putBuf_whi (c : CoreId) (off : Nat) (b : StoredByte) : (putBuf s c off b).whi = s.whi := rfl
@[simp] theorem putBuf_lc (c : CoreId) (off : Nat) (b : StoredByte) : (putBuf s c off b).lc = s.lc := rfl
@[simp] theorem putBuf_boot (c : CoreId) (off : Nat) (b : StoredByte) : (putBuf s c off b).boot = s.boot := rfl
@[simp] theorem putBuf_held (c : CoreId) (off : Nat) (b : StoredByte) : (putBuf s c off b).held = s.held := rfl
@[simp] theorem putBuf_ports (c : CoreId) (off : Nat) (b : StoredByte) : (putBuf s c off b).ports = s.ports := rfl
@[simp] theorem putBuf_epoch (c : CoreId) (off : Nat) (b : StoredByte) : (putBuf s c off b).epoch = s.epoch := rfl
@[simp] theorem putBuf_freeCtr (c : CoreId) (off : Nat) (b : StoredByte) : (putBuf s c off b).freeCtr = s.freeCtr := rfl
@[simp] theorem putBuf_pending (c : CoreId) (off : Nat) (b : StoredByte) : (putBuf s c off b).pending = s.pending := rfl
@[simp] theorem putBuf_thr (c : CoreId) (off : Nat) (b : StoredByte) (u : ThreadId) : (putBuf s c off b).thr u = s.thr u := rfl

end Sys2Proof.Laws
end

