-- ==== Sys2Proof/Laws/Memory.lean ====
section
/-! SUPPORT. Memory: a read after a write, the canonical form of a sparse map and of the tile's memory, and that every memory
operation keeps it. -/

namespace Sys2Proof.Laws

open Sys2Proof Sys2Proof.Machine

section Maps

variable {α : Type} [DecidableEq α] {d : α}

theorem smGet_of_lt {m : SMap α} {lo k : Nat} (h : smWfFrom d lo m = true) (hk : k < lo) : smGet d m k = d := by
  induction m generalizing lo with
  | nil => rfl
  | cons e m ih =>
    simp only [smWfFrom, Bool.and_eq_true, decide_eq_true_eq] at h
    have hne : e.1 ≠ k := by omega
    simp only [smGet, hne, if_false]
    exact ih h.2 (by omega)

theorem smWfFrom_mono {m : SMap α} {lo lo' : Nat} (h : smWfFrom d lo m = true) (hle : lo' ≤ lo) : smWfFrom d lo' m = true := by
  cases m with
  | nil => rfl
  | cons e m =>
    simp only [smWfFrom, Bool.and_eq_true, decide_eq_true_eq] at h ⊢
    exact ⟨⟨by omega, h.1.2⟩, h.2⟩

theorem smWfFrom_filter {m : SMap α} {lo : Nat} (p : Nat × α → Bool) (h : smWfFrom d lo m = true) :
    smWfFrom d lo (m.filter p) = true := by
  induction m generalizing lo with
  | nil => rfl
  | cons e m ih =>
    simp only [smWfFrom, Bool.and_eq_true, decide_eq_true_eq] at h
    rw [List.filter_cons]
    split
    · simp only [smWfFrom, Bool.and_eq_true, decide_eq_true_eq]
      exact ⟨h.1, ih h.2⟩
    · exact smWfFrom_mono (ih h.2) (by omega)

theorem smWfFrom_ins {m : SMap α} {lo k : Nat} {v : α} (h : smWfFrom d lo m = true) (hk : lo ≤ k) (hv : v ≠ d)
    (hn : ∀ e ∈ m, e.1 ≠ k) : smWfFrom d lo (smIns k v m) = true := by
  induction m generalizing lo with
  | nil => simp [smIns, smWfFrom, hk, hv]
  | cons e m ih =>
    simp only [smWfFrom, Bool.and_eq_true, decide_eq_true_eq] at h
    have hne : e.1 ≠ k := hn e (by simp)
    simp only [smIns]
    split
    · simp only [smWfFrom, Bool.and_eq_true, decide_eq_true_eq]
      exact ⟨⟨hk, hv⟩, ⟨by omega, h.1.2⟩, h.2⟩
    · simp only [smWfFrom, Bool.and_eq_true, decide_eq_true_eq]
      exact ⟨h.1, ih h.2 (by omega) (fun x hx => hn x (by simp [hx]))⟩

omit [DecidableEq α] in
theorem smDel_ne {m : SMap α} {k : Nat} : ∀ e ∈ smDel m k, e.1 ≠ k := by
  intro e he
  have := (List.mem_filter.mp he).2
  simpa using this

/-- Writing a key keeps the canonical form. -/
theorem smWf_put {m : SMap α} (k : Nat) (v : α) (h : smWf d m = true) : smWf d (smPut d m k v) = true := by
  unfold smPut
  split
  · exact smWfFrom_filter _ h
  · rename_i hv
    exact smWfFrom_ins (smWfFrom_filter _ h) (Nat.zero_le _) hv smDel_ne

/-- Removing entries keeps the canonical form. -/
theorem smWf_filter {m : SMap α} (p : Nat × α → Bool) (h : smWf d m = true) : smWf d (m.filter p) = true := smWfFrom_filter p h

omit [DecidableEq α] in
theorem smGet_ins_same {m : SMap α} {k : Nat} {v : α} (hn : ∀ e ∈ m, e.1 ≠ k) : smGet d (smIns k v m) k = v := by
  induction m with
  | nil => simp [smIns, smGet]
  | cons e m ih =>
    have hne : e.1 ≠ k := hn e (by simp)
    simp only [smIns]
    split
    · simp [smGet]
    · simp only [smGet, hne, if_false]
      exact ih (fun x hx => hn x (by simp [hx]))

omit [DecidableEq α] in
theorem smGet_ins_other {m : SMap α} {k j : Nat} {v : α} (h : j ≠ k) : smGet d (smIns k v m) j = smGet d m j := by
  induction m with
  | nil => simp [smIns, smGet, h.symm]
  | cons e m ih =>
    simp only [smIns]
    split
    · simp [smGet, h.symm]
    · simp only [smGet, ih]

omit [DecidableEq α] in
theorem smGet_absent {m : SMap α} {k : Nat} (hn : ∀ e ∈ m, e.1 ≠ k) : smGet d m k = d := by
  induction m with
  | nil => rfl
  | cons e m ih =>
    have hne : e.1 ≠ k := hn e (by simp)
    simp only [smGet, hne, if_false]
    exact ih (fun x hx => hn x (by simp [hx]))

omit [DecidableEq α] in
/-- Dropping the entries of other keys leaves a key's value. -/
theorem smGet_filter_keep {m : SMap α} {k : Nat} (p : Nat × α → Bool) (h : ∀ v, p (k, v) = true) :
    smGet d (m.filter p) k = smGet d m k := by
  induction m with
  | nil => rfl
  | cons e m ih =>
    rw [List.filter_cons]
    by_cases hk : e.1 = k
    · have hp : p e = true := by
        have := h e.2
        rwa [← hk] at this
      simp [hp, smGet, hk]
    · split
      · simp only [smGet, hk, if_false, ih]
      · simp only [smGet, hk, if_false, ih]

omit [DecidableEq α] in
/-- A key whose entries are dropped reads as the default. -/
theorem smGet_filter_drop {m : SMap α} {k : Nat} (p : Nat × α → Bool) (h : ∀ v, p (k, v) = false) :
    smGet d (m.filter p) k = d := by
  refine smGet_absent (fun e he hk => ?_)
  have hp := (List.mem_filter.mp he).2
  have := h e.2
  rw [← hk] at this
  simp [this] at hp

/-- A read after a write to the same key gives the value written. -/
@[simp] theorem smGet_put_same (m : SMap α) (k : Nat) (v : α) : smGet d (smPut d m k v) k = v := by
  unfold smPut
  split
  · rename_i hv
    rw [hv]
    exact smGet_absent smDel_ne
  · exact smGet_ins_same smDel_ne

/-- A write leaves every other key alone. -/
theorem smGet_put_other (m : SMap α) {k j : Nat} (v : α) (h : j ≠ k) : smGet d (smPut d m k v) j = smGet d m j := by
  have hd : smGet d (smDel m k) j = smGet d m j := smGet_filter_keep _ (fun _ => by simpa using h)
  unfold smPut
  split
  · exact hd
  · rw [smGet_ins_other h, hd]

/-- Canonical maps with equal contents are equal. -/
theorem smWf_ext {m n : SMap α} (hm : smWf d m = true) (hn : smWf d n = true) (h : ∀ k, smGet d m k = smGet d n k) : m = n := by
  suffices key : ∀ (m n : SMap α) (lo : Nat), smWfFrom d lo m = true → smWfFrom d lo n = true →
      (∀ k, lo ≤ k → smGet d m k = smGet d n k) → m = n from key m n 0 hm hn (fun k _ => h k)
  intro m
  induction m with
  | nil =>
    intro n lo _ hn h
    cases n with
    | nil => rfl
    | cons e n =>
      simp only [smWfFrom, Bool.and_eq_true, decide_eq_true_eq] at hn
      have := h e.1 hn.1.1
      simp only [smGet, if_true] at this
      exact absurd this.symm hn.1.2
  | cons e m ih =>
    intro n lo hm hn h
    simp only [smWfFrom, Bool.and_eq_true, decide_eq_true_eq] at hm
    cases n with
    | nil =>
      have := h e.1 hm.1.1
      simp only [smGet, if_true] at this
      exact absurd this hm.1.2
    | cons f n =>
      simp only [smWfFrom, Bool.and_eq_true, decide_eq_true_eq] at hn
      have hk : e.1 = f.1 := by
        rcases Nat.lt_trichotomy e.1 f.1 with hlt | heq | hgt
        · have := h e.1 hm.1.1
          have hne : f.1 ≠ e.1 := by omega
          simp only [smGet, if_true, hne, if_false, smGet_of_lt hn.2 (show e.1 < f.1 + 1 by omega)] at this
          exact absurd this hm.1.2
        · exact heq
        · have := h f.1 hn.1.1
          have hne : e.1 ≠ f.1 := by omega
          simp only [smGet, if_true, hne, if_false, smGet_of_lt hm.2 (show f.1 < e.1 + 1 by omega)] at this
          exact absurd this.symm hn.1.2
      have hv : e.2 = f.2 := by
        have := h e.1 hm.1.1
        simpa [smGet, hk] using this
      have he : e = f := Prod.ext hk hv
      subst he
      congr 1
      refine ih n (e.1 + 1) hm.2 hn.2 (fun k hle => ?_)
      have := h k (by omega)
      have hne : e.1 ≠ k := by omega
      simpa only [smGet, hne, if_false] using this

end Maps

/-! ### The memory of the tile -/

variable {s : State}

theorem memoryWf_iff : memoryWf s = true ↔ smWf 0 s.mem = true ∧ smWf sharedKill s.sprog = true := by
  simp [memoryWf]

/-- What leaves both stores leaves their form. -/
theorem memoryWf_of_eq {u : State} (hm : u.mem = s.mem) (hp : u.sprog = s.sprog) (h : memoryWf s = true) : memoryWf u = true := by
  simpa [memoryWf, hm, hp] using h

theorem memoryWf_putMem (a : Nat) (b : StoredByte) (h : memoryWf s = true) : memoryWf (putMem s a b) = true := by
  rw [memoryWf_iff] at h ⊢
  exact ⟨smWf_put a b h.1, h.2⟩

theorem memoryWf_putBuf (c : CoreId) (off : Nat) (b : StoredByte) (h : memoryWf s = true) : memoryWf (putBuf s c off b) = true :=
  memoryWf_of_eq rfl rfl h

/-- A byte reads as it was written. -/
@[simp] theorem putMem_get_same (a : Nat) (b : StoredByte) : smGet 0 (putMem s a b).mem a = b := smGet_put_same ..

/-- A write of a byte leaves every other byte. -/
theorem putMem_get_other {a x : Nat} (b : StoredByte) (h : x ≠ a) : smGet 0 (putMem s a b).mem x = smGet 0 s.mem x :=
  smGet_put_other _ _ h

theorem memoryWf_putRaw (via : Via) (a : Nat) (b : StoredByte) (h : memoryWf s = true) : memoryWf (putRaw s via a b) = true := by
  unfold putRaw
  split
  · dsimp only
    split
    · split
      · exact memoryWf_putBuf _ _ _ (memoryWf_putMem _ _ h)
      · split
        · exact memoryWf_putBuf _ _ _ h
        · exact memoryWf_putMem _ _ h
    · exact memoryWf_putMem _ _ h
  · exact memoryWf_putMem _ _ h

/-- A write of a byte, redirected or not, leaves every other stored byte. -/
theorem putRaw_get_other (via : Via) {a x : Nat} (b : StoredByte) (h : x ≠ a) :
    smGet 0 (putRaw s via a b).mem x = smGet 0 s.mem x := by
  unfold putRaw
  split
  · dsimp only
    split
    · split
      · rw [putBuf_mem, putMem_get_other b h]
      · split
        · rw [putBuf_mem]
        · exact putMem_get_other b h
    · exact putMem_get_other b h
  · exact putMem_get_other b h

/-- A fold keeps what its steps keep. -/
theorem foldl_keeps {β σ : Type} {P : σ → Prop} {f : σ → β → σ} {l : List β} {x : σ} (hf : ∀ x b, P x → P (f x b)) (h : P x) :
    P (l.foldl f x) := by
  induction l generalizing x with
  | nil => exact h
  | cons b l ih => exact ih (hf x b h)

theorem memoryWf_mapThreads (f : Thread → Thread) (h : memoryWf s = true) : memoryWf (s.mapThreads f) = true :=
  memoryWf_of_eq rfl rfl h

/-- A write of bytes keeps the canonical form. -/
theorem memoryWf_writeSpan (via : Via) (a : Nat) (bs : List Byte) (h : memoryWf s = true) :
    memoryWf (writeSpan s via a bs) = true := by
  unfold writeSpan
  refine foldl_keeps (P := fun x => memoryWf x = true) (fun x k hx => memoryWf_mapThreads _ hx) ?_
  exact foldl_keeps (P := fun x => memoryWf x = true) (fun x e hx => memoryWf_putRaw _ _ _ hx) h

end Sys2Proof.Laws
end

