-- ==== Sys2Proof/Laws/Stacks.lean ====
section
/-! SUPPORT. What the spills and fills of a thread's stacks can do: one relation that each of their operations meets. -/

namespace Sys2Proof.Laws

open Sys2Proof Sys2Proof.Machine

/-- Everything a spill or a fill of thread t can do: it writes stored bytes of the core's own scratchpad, in a borrow window of it the
buffer's; clears reservations; counts and logs correctable errors, which raises sources; and moves the thread's stacks, whose
areas stay. -/
structure StackEffect (t : ThreadId) (s u : State) : Prop where
  rest : u = { s with threads := u.threads, cores := u.cores, mem := u.mem, tic := u.tic, ecc := u.ecc }
  wf : memoryWf s = true → memoryWf u = true
  others : ∀ v, v ≠ t → { u.thr v with resv := none } = { s.thr v with resv := none }
  own : ∃ a : Arch, { u.thr t with resv := none } = { s.thr t with resv := none, arch := a } ∧
    a = { (s.thr t).arch with stT := a.stT, stS := a.stS, stM := a.stM }
  areas : ∀ (l : Level) (rs : Bool), (u.stk t l rs).base = (s.stk t l rs).base ∧ (u.stk t l rs).lo = (s.stk t l rs).lo ∧
    (u.stk t l rs).hi = (s.stk t l rs).hi
  cores : ∀ c, ∃ buf, u.cor c = { s.cor c with borrow := { (s.cor c).borrow with buf := buf } }
  outside : ∀ a, spadCore a ≠ some t.core → smGet 0 u.mem a = smGet 0 s.mem a

variable {t : ThreadId} {s u w : State}

theorem StackEffect.refl (t : ThreadId) (s : State) : StackEffect t s s where
  rest := rfl
  wf := id
  others _ _ := rfl
  own := ⟨(s.thr t).arch, rfl, rfl⟩
  areas _ _ := ⟨rfl, rfl, rfl⟩
  cores c := ⟨(s.cor c).borrow.buf, rfl⟩
  outside _ _ := rfl

theorem StackEffect.trans (h : StackEffect t s u) (k : StackEffect t u w) : StackEffect t s w where
  rest := by
    have h1 := h.rest
    have k1 := k.rest
    rw [h1] at k1
    exact k1
  wf hs := k.wf (h.wf hs)
  others v hv := (k.others v hv).trans (h.others v hv)
  own := by
    obtain ⟨a, ha, ha'⟩ := h.own
    obtain ⟨b, hb, hb'⟩ := k.own
    have hu : (u.thr t).arch = a := by simpa using congrArg Thread.arch ha
    refine ⟨b, ?_, ?_⟩
    · rw [hb]
      have := congrArg (fun x : Thread => { x with arch := b }) ha
      simpa using this
    · rw [hu] at hb'
      rw [hb', ha']
  areas l rs := ⟨(k.areas l rs).1.trans (h.areas l rs).1, (k.areas l rs).2.1.trans (h.areas l rs).2.1,
    (k.areas l rs).2.2.trans (h.areas l rs).2.2⟩
  cores c := by
    obtain ⟨b1, h1⟩ := h.cores c
    obtain ⟨b2, h2⟩ := k.cores c
    exact ⟨b2, by rw [h2, h1]⟩
  outside a ha := (k.outside a ha).trans (h.outside a ha)

theorem StackEffect.fold {β : Type} {f : State → β → State} {l : List β} (hf : ∀ x b, StackEffect t x (f x b)) (s : State) :
    StackEffect t s (l.foldl f s) := by
  induction l generalizing s with
  | nil => exact .refl t s
  | cons b l ih => exact (hf s b).trans (ih (f s b))

/-- A change of the error logs and the sources alone. -/
theorem StackEffect.ofLogs (t : ThreadId) (s : State) (e : Ecc) (x : Tic) : StackEffect t s { s with ecc := e, tic := x } where
  rest := rfl
  wf := memoryWf_of_eq rfl rfl
  others _ _ := rfl
  own := ⟨(s.thr t).arch, rfl, rfl⟩
  areas _ _ := ⟨rfl, rfl, rfl⟩
  cores c := ⟨(s.cor c).borrow.buf, rfl⟩
  outside _ _ := rfl

/-- A rising edge changes the TIC alone. -/
theorem raiseSrc_eq (i : Nat) (s : State) : raiseSrc i s = { s with tic := (raiseSrc i s).tic } := by
  unfold raiseSrc
  split
  · rfl
  · split
    · split <;> rfl
    · rfl

/-- Counting a correctable error changes the error counters and the TIC alone. -/
theorem countCE_eq (b : Nat) (s : State) : countCE b s = { s with ecc := (countCE b s).ecc, tic := (countCE b s).tic } := by
  unfold countCE
  dsimp only
  split
  · rfl
  · split
    · rw [raiseSrc_eq]
    · rfl

/-- Logging a correctable error changes the error logs and the TIC alone. -/
theorem logCE_eq (e : EccEntry) (s : State) : logCE e s = { s with ecc := (logCE e s).ecc, tic := (logCE e s).tic } := by
  unfold logCE
  split
  · rfl
  · split
    · rfl
    · dsimp only
      split
      · rw [raiseSrc_eq]
      · rfl

theorem StackEffect.countCE (t : ThreadId) (b : Nat) (s : State) : StackEffect t s (countCE b s) := by
  rw [countCE_eq]
  exact .ofLogs ..

theorem StackEffect.logCE (t : ThreadId) (e : EccEntry) (s : State) : StackEffect t s (logCE e s) := by
  rw [logCE_eq]
  exact .ofLogs ..

theorem spadCore_base (c : CoreId) {off : Nat} (h : off < 0x18000) : spadCore (spadBase c.val + off) = some c := by
  have hc := c.isLt
  unfold spadCore spadBase
  have h1 : 0x01000000 ≤ 0x01000000 + c.val * 0x20000 + off ∧ 0x01000000 + c.val * 0x20000 + off < 0x01200000 ∧
      (0x01000000 + c.val * 0x20000 + off - 0x01000000) % 0x20000 < 0x18000 := by omega
  rw [dif_pos h1]
  congr 1
  apply Fin.ext
  simp only
  omega

theorem putBuf_cores (c d : CoreId) (off : Nat) (b : StoredByte) (s : State) :
    ∃ buf, (putBuf s c off b).cor d = { s.cor d with borrow := { (s.cor d).borrow with buf := buf } } := by
  unfold putBuf
  by_cases h : d = c
  · subst h
    exact ⟨_, modCor_cor_same ..⟩
  · exact ⟨(s.cor d).borrow.buf, modCor_cor_other s _ h⟩

/-- A write of a byte changes memory and the borrow buffers alone. -/
theorem putRaw_eq (via : Via) (a : Nat) (b : StoredByte) (s : State) :
    putRaw s via a b = { s with mem := (putRaw s via a b).mem, cores := (putRaw s via a b).cores } := by
  unfold putRaw
  split
  · dsimp only
    split
    · split
      · rfl
      · split <;> rfl
    · rfl
  · rfl

theorem putRaw_cores (via : Via) (a : Nat) (b : StoredByte) (s : State) (d : CoreId) :
    ∃ buf, (putRaw s via a b).cor d = { s.cor d with borrow := { (s.cor d).borrow with buf := buf } } := by
  have same : ∃ buf, s.cor d = { s.cor d with borrow := { (s.cor d).borrow with buf := buf } } := ⟨_, rfl⟩
  unfold putRaw
  split
  · dsimp only
    split
    · split
      · exact putBuf_cores ..
      · split
        · exact putBuf_cores ..
        · exact same
    · exact same
  · exact same

/-- A write of a byte of the thread's own scratchpad. -/
theorem StackEffect.putRaw (t : ThreadId) (via : Via) {a : Nat} (b : StoredByte) (s : State) (h : spadCore a = some t.core) :
    StackEffect t s (putRaw s via a b) where
  rest := by
    conv_lhs => rw [putRaw_eq]
    conv_rhs => rw [putRaw_eq]
  wf := memoryWf_putRaw via a b
  others v _ := by rw [putRaw_eq]; rfl
  own := ⟨(s.thr t).arch, by rw [putRaw_eq]; rfl, rfl⟩
  areas l rs := by rw [putRaw_eq]; exact ⟨rfl, rfl, rfl⟩
  cores := putRaw_cores via a b s
  outside x hx := putRaw_get_other via b (fun e => hx (e ▸ h))

theorem clearResv_thr (key : Nat) (s : State) (v : ThreadId) :
    { (clearResv key s).thr v with resv := none } = { s.thr v with resv := none } ∧
      ((clearResv key s).thr v).arch = (s.thr v).arch := by
  unfold clearResv
  rw [mapThreads_thr]
  split <;> exact ⟨rfl, rfl⟩

theorem StackEffect.clearResv (t : ThreadId) (key : Nat) (s : State) : StackEffect t s (clearResv key s) where
  rest := rfl
  wf := memoryWf_of_eq rfl rfl
  others v _ := (clearResv_thr key s v).1
  own := ⟨(s.thr t).arch, (clearResv_thr key s t).1, rfl⟩
  areas l rs := by
    unfold State.stk
    rw [(clearResv_thr key s t).2]
    exact ⟨rfl, rfl, rfl⟩
  cores c := ⟨(s.cor c).borrow.buf, rfl⟩
  outside _ _ := rfl

theorem StackEffect.putSpill (t : ThreadId) (off : Nat) (b : StoredByte) (s : State) : StackEffect t s (putSpill s t off b) := by
  unfold Machine.putSpill
  split
  · rename_i h
    exact (StackEffect.putRaw t .normal b s (spadCore_base t.core h)).trans (.clearResv ..)
  · exact .refl t s

theorem stk_setStk (t : ThreadId) (l m : Level) (rs qs : Bool) (k : Stk) (s : State) :
    (s.setStk t l rs k).stk t m qs = if m = l ∧ qs = rs then k else s.stk t m qs := by
  unfold State.setStk State.stk State.modArch
  rw [modThr_thr_same]
  cases l <;> cases m <;> cases rs <;> cases qs <;> rfl

/-- A thread's stack moves within its area. -/
theorem StackEffect.setStk (t : ThreadId) (l : Level) (rs : Bool) (k : Stk) (s : State) (hb : k.base = (s.stk t l rs).base)
    (hl : k.lo = (s.stk t l rs).lo) (hh : k.hi = (s.stk t l rs).hi) : StackEffect t s (s.setStk t l rs k) where
  rest := rfl
  wf := memoryWf_of_eq rfl rfl
  others v hv := by
    unfold State.setStk State.modArch
    rw [modThr_thr_other s _ hv]
  own := by
    refine ⟨((s.setStk t l rs k).thr t).arch, ?_, ?_⟩
    · unfold State.setStk State.modArch
      rw [modThr_thr_same]
    · unfold State.setStk State.modArch
      rw [modThr_thr_same]
      cases l <;> rfl
  areas m qs := by
    rw [stk_setStk]
    split
    · rename_i h
      rw [h.1, h.2]
      exact ⟨hb, hl, hh⟩
    · exact ⟨rfl, rfl, rfl⟩
  cores c := ⟨(s.cor c).borrow.buf, rfl⟩
  outside _ _ := rfl

theorem StackEffect.spillOne (t : ThreadId) (l : Level) (rs : Bool) (s : State) : StackEffect t s (spillOne t l rs s) := by
  unfold Machine.spillOne
  dsimp only
  split
  · exact .refl t s
  · rename_i c _
    have h := StackEffect.fold (t := t) (l := List.range 6)
      (f := fun acc j => Machine.putSpill acc t ((s.stk t l rs).sp.toNat + j) (spillByte c j)) (fun x j => .putSpill ..) s
    exact h.trans (.setStk t l rs _ _ (h.areas l rs).1.symm (h.areas l rs).2.1.symm (h.areas l rs).2.2.symm)

theorem StackEffect.spillMany (t : ThreadId) (l : Level) (rs : Bool) (n : Nat) (s : State) :
    StackEffect t s (spillMany t l rs n s) := by
  induction n generalizing s with
  | zero => exact .refl t s
  | succ n ih => exact (StackEffect.spillOne t l rs s).trans (ih _)

theorem StackEffect.spillForRoom (t : ThreadId) (l : Level) (rs : Bool) (s : State) :
    StackEffect t s (spillForRoom t l rs s) := by
  unfold Machine.spillForRoom
  dsimp only
  split
  · exact .spillOne ..
  · split
    · exact .spillOne ..
    · split <;> exact .spillOne ..

theorem StackEffect.makeRoom (t : ThreadId) (l : Level) (rs : Bool) (n : Nat) (s : State) :
    StackEffect t s (makeRoom t l rs n s) := .fold (fun _ _ => .spillForRoom ..) s

theorem StackEffect.readByte (t : ThreadId) {a : Nat} (s : State) (h : spadCore a = some t.core) :
    StackEffect t s (readByte s .normal a).2 := by
  unfold Machine.readByte
  dsimp only
  split
  · rename_i d _
    have h1 := (StackEffect.countCE t (bankOf a) s).trans (.logCE t (byteEntry a (rawByte s .normal a) (s.ecc.legacy && !isKeep a)) _)
    dsimp only
    split
    · exact h1.trans (.putRaw t .normal _ _ h)
    · exact h1
  · exact .refl t s

theorem StackEffect.fillByte (t : ThreadId) (off : Nat) (s : State) : StackEffect t s (fillByte s t off).2 := by
  unfold Machine.fillByte
  split
  · rename_i h
    have h1 := StackEffect.readByte t s (spadCore_base t.core h)
    dsimp only
    split <;> exact h1
  · exact .refl t s

theorem StackEffect.fillOne (t : ThreadId) (l : Level) (rs : Bool) (s : State) : StackEffect t s (fillOne t l rs s) := by
  unfold Machine.fillOne
  dsimp only
  generalize hr : List.foldl (fun (acc : List (Byte × Bool) × State) j =>
    (acc.1 ++ [(Machine.fillByte acc.2 t (((s.stk t l rs).sp - 6).toNat + j)).1],
      (Machine.fillByte acc.2 t (((s.stk t l rs).sp - 6).toNat + j)).2)) ([], s) (List.range 6) = r
  have h : StackEffect t s r.2 := by
    rw [← hr]
    exact foldl_keeps (P := fun x : List (Byte × Bool) × State => StackEffect t s x.2)
      (fun x j hx => hx.trans (.fillByte ..)) (.refl t s)
  exact h.trans (.setStk t l rs _ _ (h.areas l rs).1.symm (h.areas l rs).2.1.symm (h.areas l rs).2.2.symm)

theorem StackEffect.fillMany (t : ThreadId) (l : Level) (rs : Bool) (n : Nat) (s : State) :
    StackEffect t s (fillMany t l rs n s) := by
  induction n generalizing s with
  | zero => exact .refl t s
  | succ n ih => exact (StackEffect.fillOne t l rs s).trans (ih _)

/-- A demand fill that needs no store to drain first. -/
theorem StackEffect.ensure {l : Level} {rs : Bool} {n : Nat} (h : ensure t l rs n s = some u) : StackEffect t s u := by
  unfold Machine.ensure at h
  dsimp only at h
  split at h
  · cases h
    exact .refl t s
  · split at h
    · cases h
    · cases h
      exact (StackEffect.makeRoom ..).trans (.fillMany ..)

/-- A fill that finds its cells resident does nothing. -/
theorem ensure_resident {l : Level} {rs : Bool} {n : Nat} (h : n ≤ (s.stk t l rs).res.length) : ensure t l rs n s = some s := by
  unfold Machine.ensure
  have h0 : n - (s.stk t l rs).res.length = 0 := by omega
  simp only [h0, if_true]

/-- No spill makes room where the cells fit. -/
theorem makeRoom_fits {l : Level} {rs : Bool} {n : Nat} (h : residents s t rs + n ≤ windowSize rs) : makeRoom t l rs n s = s := by
  unfold Machine.makeRoom
  have h0 : residents s t rs + n - windowSize rs = 0 := by omega
  simp only [h0, List.range_zero, List.foldl_nil]

/-- A pop and a push of cells. -/
theorem StackEffect.replaceTop (t : ThreadId) (l : Level) (rs : Bool) (n : Nat) (cs : List PCell) (s : State) :
    StackEffect t s (replaceTop t l rs n cs s) := by
  unfold Machine.replaceTop
  exact (StackEffect.setStk t l rs { s.stk t l rs with res := cs ++ (s.stk t l rs).res.drop n } s rfl rfl rfl).trans (.makeRoom ..)

end Sys2Proof.Laws
end

