-- ==== Sys2Proof/Laws/Ops.lean ====
section
/-! SUPPORT. What the operations that words and events share can do: retirement, waits, sources, machine checks, fetches and
memory reads. -/

namespace Sys2Proof.Laws

open Sys2Proof Sys2Proof.Machine

variable {t : ThreadId} {s u : State}

/-! ### Halts, rests and resets -/

/-- No block instruction yields to a halt where none stands. -/
theorem haltYields_of_run (h : s.frozen = false) : haltYields s t = false := by simp [haltYields, h]

/-- A stepped or injected block instruction does not yield to the halt it runs in. -/
theorem haltYields_of_injected (h : (s.thr t).inj ≠ none) : haltYields s t = false := by
  cases hi : (s.thr t).inj with
  | none => exact absurd hi h
  | some _ => simp [haltYields, hi]

/-- At Run a core takes note of every call that stands. -/
theorem callsSeen_of_run {c : CoreId} (h : (s.cor c).rest = .run) : callsSeen s c = standingCalls s c := by simp [callsSeen, h]

/-- An exit that runs is a wake event that stands. -/
theorem wakeStands_of_waking (h : s.pwr.waking = true) : wakeStands s = true := by simp [wakeStands, h]

/-- A thread or core reset covers no tile register (R503). -/
theorem resetCovers_tile (k : Nat) (h : s.boot = .run) : resetCovers s (.tile k) = false := by simp [resetCovers, State.bootKind, h]

/-- A register that every reset under way keeps is covered by none (R503, R504). -/
theorem resetCovers_of_keeps {r : RegRef} {kind : BitVec 3} (h : s.bootKind = some kind) (hk : resetKeeps kind r = true) :
    resetCovers s r = false := by simp [resetCovers, h, hk]

/-- No other word than an injected one is noted for the undoing (R465). -/
theorem noteUndo_plain (isFrame : Bool) (a : Nat) (bs : List Byte) (h : (s.thr t).inj = none) : noteUndo t isFrame a bs s = s := by
  simp [noteUndo, h]

/-- A word that was not injected shows its progress where it does not retire (R157). -/
theorem leftProgress_plain (b : BlockState) (h : (s.thr t).inj = none) : leftProgress t b s = showProgress t b s := by
  simp [leftProgress, h]

/-- Out of a debug halt the helpers serve every thread (R402). -/
theorem servesNow_of_run (h : s.frozen = false) : servesNow s t = true := by simp [servesNow, h]

/-- Outside the first cycle of a reset a drain does as its entry says. -/
theorem storeDrain_of_oldest {meet : Bool} {issued : Nat} {e : SbEntry} {rest : List SbEntry} (h : storesOf s t = e :: rest) (hb : s.boot = .run)
    (hw : e.phase = .waiting) :
    storeDrain t meet false s issued =
      afterDrain ((if (meet ∨ issued ≠ 0) ∧ e.par = 0 then noteMeet t e meet issued s else id) (drainEntry t e s)) := by
  simp [storeDrain, h, hb, hw]

/-- A word writes its predicate where no store to THR.PRED meets its retirement, and otherwise only what the guards read before the drain
have of it (R57, R201). -/
theorem putPred_free (k : BitVec 2) (b : Bool) (h : (s.thr t).predMet = false) (ho : (s.thr t).oldPreds = []) :
    putPred t k b s = s.modArch t fun a => a.setPred k b := by
  simp [putPred, State.modArch, State.modThr, h, ho]
theorem putPred_met (k : BitVec 2) (b : Bool) (h : (s.thr t).predMet = true) :
    putPred t k b s = s.modThr t fun th => { th with oldPreds := th.oldPreds.map (·.setPred k b) } := by
  simp [putPred, State.modThr, h]

/-- With no drain behind it, a guard reads the predicate as it stands. -/
theorem guardPred_plain {th : Thread} (k : BitVec 2) (h : th.oldPreds = []) : th.guardPred k = th.arch.pred k := by
  unfold Thread.guardPred; rw [h]; split <;> simp_all

/-- An injected word's guard reads it so too. -/
theorem guardPred_injected {th : Thread} (k : BitVec 2) (h : th.inj ≠ none) : th.guardPred k = th.arch.pred k := by
  unfold Thread.guardPred; split <;> simp_all

/-- The guard of a word that was at I before the drain has the old value (R226). -/
theorem guardPred_old {th : Thread} {o : OldPred} {rest : List OldPred} (k : BitVec 2) (hi : th.inj = none) (h : th.oldPreds = o :: rest) :
    th.guardPred k = o.pred k := by
  unfold Thread.guardPred; rw [hi, h]

/-- No register write changes the level at which a thread stands (R235). -/
@[simp] theorem storeArchField_level (l : Level) (n : Nat) (v : Cell) (a : Arch) : (storeArchField l n v a).level = a.level := by
  unfold storeArchField; split <;> [rfl; (split <;> rfl)]

/-! ### Sources -/

@[simp] theorem setSrc_src_same (s : State) (i : Nat) (x : Src) : (s.setSrc i x).src i = x := smGet_put_same ..

theorem setSrc_src_other (s : State) {i j : Nat} (x : Src) (h : j ≠ i) : (s.setSrc i x).src j = s.src j := smGet_put_other _ _ h

/-- An edge on a source that exists sets its PEND while the TIC is clocked. -/
theorem raiseSrc_run {i : Nat} (hi : srcExists i = true) (hs : s.ticStopped = false) :
    raiseSrc i s = s.setSrc i { s.src i with pend := true } := by
  simp [raiseSrc, hi, hs]

/-! ### Retirement and waits -/

/-- With no step running, the end of a step is nothing. -/
theorem endStep_idle (code : BitVec 3) (ready : Bool) (h : s.dbg.stepping = false) : endStep code ready s = s := by
  simp [endStep, h]

/-- A word that is neither injected nor stepped retires: its thread goes on at the address. -/
theorem retire_plain (pc : WAddr) (hi : (s.thr t).inj = none) (hs : s.dbg.stepping = false) :
    retire t pc s = s.modThr t fun th => { th with
      pend := .none, skip := false, arithMet := false, predMet := false, oldPreds := oldPredsNext th.oldPreds
      chainAt := if pc = th.arch.pc + 1 then th.chainAt else none
      arch := { th.arch with pc := pc } } := by
  unfold retire
  rw [hi]
  exact endStep_idle 1 true hs

/-- An injected word retires: PC and SKIP stay, and DONE sets. -/
theorem retire_injected {b : Bool} (pc : WAddr) (hi : (s.thr t).inj = some b) :
    retire t pc s =
      { s.modThr t fun th => { th with pend := .none, inj := none, arithMet := false, predMet := false, oldPreds := [] } with
        dbg := { s.dbg with istDone := true, injUndo := [] } } := by
  unfold retire
  rw [hi]
  rfl

/-- A word that is not stepped parks: its wait stands in flight, and nothing else changes. -/
theorem park_plain (p : Pend) (hs : s.dbg.stepping = false) : park t p s = s.modThr t fun th => { th with pend := p } :=
  endStep_idle 3 false hs

/-- A machine-check event changes the machine-check fields alone. -/
theorem raiseMC_eq (reason core : BitVec 4) (thread : BitVec 7) (s : State) :
    raiseMC reason core thread s = { s with tic := (raiseMC reason core thread s).tic } := by
  unfold raiseMC
  split <;> rfl

/-! ### Reads of memory and fetches -/

/-- A read of a byte changes memory only by writing a correctable byte back, and counts and logs it. -/
theorem memoryWf_readByte (via : Via) (a : Nat) (h : memoryWf s = true) : memoryWf (readByte s via a).2 = true := by
  unfold readByte
  dsimp only
  split
  · have h1 : memoryWf (logCE (byteEntry a (rawByte s via a) (s.ecc.legacy && !isKeep a)) (countCE (bankOf a) s)) = true := by
      rw [logCE_eq, countCE_eq]
      exact memoryWf_of_eq (s := s) rfl rfl h
    dsimp only
    split
    · exact memoryWf_putRaw _ _ _ h1
    · exact h1
  · exact h

theorem memoryWf_readSpan (via : Via) (a n : Nat) (h : memoryWf s = true) : memoryWf (readSpan s via a n).2 = true := by
  unfold readSpan readAddrs
  exact foldl_keeps (P := fun x : ReadRes × State => memoryWf x.2 = true) (fun x b hx => memoryWf_readByte via b hx) h

theorem memoryWf_readShared (a : Nat) (h : memoryWf s = true) : memoryWf (readShared s a).2 = true := by
  unfold readShared
  dsimp only
  split
  · exact h
  · exact h
  · rename_i w syn _
    have h1 : ∀ e : EccEntry, memoryWf (raiseSrc 6 (logCE e (countCE 85 s))) = true := fun e => by
      rw [raiseSrc_eq, logCE_eq, countCE_eq]
      exact memoryWf_of_eq (s := s) rfl rfl h
    dsimp only
    split
    · have h2 := memoryWf_iff.mp (h1 { prog := true, lane := 0, syn := syn, wr := s.ecc.legacy, addr := BitVec.ofNat 36 a })
      exact memoryWf_iff.mpr ⟨h2.1, smWf_put _ _ h2.2⟩
    · exact h1 _

theorem memoryWf_fillIline (c : CoreId) (a : Nat) (h : memoryWf s = true) : memoryWf (fillIline s c a) = true := by
  unfold fillIline
  dsimp only
  refine memoryWf_of_eq (modCor_mem ..) (modCor_sprog ..) ?_
  exact foldl_keeps (P := fun x : List (BitVec 16 × Bool) × State => memoryWf x.2 = true)
    (fun x b hx => memoryWf_readShared b hx) h

theorem memoryWf_touchIline (c : CoreId) (a : Nat) (h : memoryWf s = true) : memoryWf (touchIline s c a) = true := by
  have h1 : ∀ f : Core → Core, memoryWf (s.modCor c f) = true := fun f => memoryWf_of_eq (modCor_mem ..) (modCor_sprog ..) h
  unfold touchIline
  split
  · split
    · exact h1 _
    · exact memoryWf_fillIline c a (h1 _)
  · exact memoryWf_fillIline c a h

theorem memoryWf_fetchWord (c : CoreId) (a : WAddr) (h : memoryWf s = true) : memoryWf (fetchWord s c a).2 = true := by
  have h1 := memoryWf_touchIline c a.toNat h
  unfold fetchWord
  split
  · exact h
  · exact h
  · exact h
  · split
    · exact memoryWf_readShared _ h
    · dsimp only
      split <;> exact h1

/-- A fetch from the thread's local program RAM changes nothing. -/
theorem fetchWord_local (c : CoreId) {a : WAddr} (h : a.toNat < 0x8000) : (fetchWord s c a).2 = s := by
  unfold fetchWord pregion
  simp only [h, if_true]

/-! ### The running level's operand stack -/

theorem memoryWf_ensureCur {rs : Bool} {n : Nat} (he : ensureCur t rs n s = some u) (h : memoryWf s = true) : memoryWf u = true :=
  (StackEffect.ensure he).wf h

theorem memoryWf_curReplace (rs : Bool) (n : Nat) (cs : List PCell) (h : memoryWf s = true) :
    memoryWf (curReplace t rs n cs s) = true := (StackEffect.replaceTop ..).wf h

/-- A pop and push whose cells are resident and fit changes its thread's stack alone. -/
theorem curReplace_fits {rs : Bool} {n : Nat} {cs : List PCell}
    (h : residents (s.setStk t (curLevel s t) rs
      { s.stk t (curLevel s t) rs with res := cs ++ (s.stk t (curLevel s t) rs).res.drop n }) t rs ≤ windowSize rs) :
    curReplace t rs n cs s = s.setStk t (curLevel s t) rs
      { s.stk t (curLevel s t) rs with res := cs ++ (s.stk t (curLevel s t) rs).res.drop n } := makeRoom_fits h

/-! ### The keep store -/

theorem memoryWf_putStored (a : Nat) (bs : List (Option StoredByte)) (h : memoryWf s = true) :
    memoryWf (putStored a bs s) = true := by
  induction bs generalizing a s with
  | nil => exact h
  | cons b bs ih => cases b with
    | none => exact ih (a + 1) h
    | some b => exact ih (a + 1) (memoryWf_putMem a b h)

theorem memoryWf_keepCellDone (h : memoryWf s = true) : memoryWf (keepCellDone s) = true := by
  unfold keepCellDone
  split
  · exact h
  · rename_i j rest _
    dsimp only
    rw [raiseSrc_eq]
    exact memoryWf_of_eq (s := putStored j.addr j.bytes s) rfl rfl (memoryWf_putStored _ _ h)

/-- A keep-store write that starts only joins the writes in progress. -/
theorem keepStart_eq (o : KeepOwner) (a : Nat) (bs : List Byte) (s : State) :
    keepStart o a bs s = { s with ks := { s.ks with todo := s.ks.todo ++ keepCells o a bs } } := rfl

/-! ### The ports and a FLUSH in a core cycle, and an injected word -/

/-- The fabric takes the oldest request that it has not taken, of those that no OWNER_RESET holds. -/
theorem takeFirst_append {held : FabReq → Bool} {pre post : List FabReq} {q : FabReq} (hp : ∀ r ∈ pre, r.taken = true ∨ held r = true)
    (hq : q.taken = false) (hf : held q = false) : takeFirst held (pre ++ q :: post) = pre ++ { q with taken := true } :: post := by
  induction pre with
  | nil => simp [takeFirst, hq, hf]
  | cons r rest ih =>
    have h : (r.taken || held r) = true := by simpa using hp r (by simp)
    simp [takeFirst, h, ih fun x hx => hp x (by simp [hx])]

/-- Where every request is taken or held, none is taken. -/
theorem takeFirst_none {held : FabReq → Bool} {l : List FabReq} (h : ∀ r ∈ l, r.taken = true ∨ held r = true) : takeFirst held l = l := by
  induction l with
  | nil => rfl
  | cons r rest ih =>
    have h1 : (r.taken || held r) = true := by simpa using h r (by simp)
    simp [takeFirst, h1, ih fun x hx => h x (by simp [hx])]

theorem semTake_idle (h : s.ports.semReq = []) : semTake s = s := by simp [semTake, h]

theorem custCycle_idle (h : s.ports.chReq = none) : custCycle s = s := by simp [custCycle, h]

theorem flushThread_other (h : ∀ n, (s.thr t).pend ≠ .flush n) : flushThread s t = s := by
  unfold flushThread
  split
  · rename_i n _ hn
    exact absurd hn (h n)
  · rfl

/-- With no FLUSH in flight the cycle changes nothing more. -/
theorem flushCycle_none (h : ∀ (v : ThreadId) (n : Nat), (s.thr v).pend ≠ .flush n) : flushCycle s = s := by
  unfold flushCycle
  induction threadIds with
  | nil => rfl
  | cons v vs ih => rw [List.foldl_cons, flushThread_other (h v), ih]

/-- An injected word that has written nothing leaves nothing to undo. -/
theorem undoInjected_none (h : s.dbg.injUndo = []) : undoInjected t s = s := by
  show { List.foldl (undoStep t) s s.dbg.injUndo with
    dbg := { (List.foldl (undoStep t) s s.dbg.injUndo).dbg with injUndo := [] } } = s
  rw [h, List.foldl_nil, ← h]

end Sys2Proof.Laws
end

