-- ==== Sys2Proof/Laws/PerInstr.lean ====
section
/-! SUPPORT. Statements made per instruction. -/

namespace Sys2Proof.Laws

open Sys2Proof

/-- A command is a program word of a thread exactly when it has an encoding. -/
def Encodes.Statement (i : Instr) : Prop := (wordThread i).isSome = (encodeWord i).isSome

theorem Encodes.bkpt (t : ThreadId) (g : Guard) : Encodes.Statement (.bkpt t g) := rfl
theorem Encodes.dup (t : ThreadId) (g : Guard) : Encodes.Statement (.dup t g) := rfl
theorem Encodes.drop (t : ThreadId) (g : Guard) : Encodes.Statement (.drop t g) := rfl
theorem Encodes.swap (t : ThreadId) (g : Guard) : Encodes.Statement (.swap t g) := rfl
theorem Encodes.over (t : ThreadId) (g : Guard) : Encodes.Statement (.over t g) := rfl
theorem Encodes.rot (t : ThreadId) (g : Guard) : Encodes.Statement (.rot t g) := rfl
theorem Encodes.nip (t : ThreadId) (g : Guard) : Encodes.Statement (.nip t g) := rfl
theorem Encodes.tuck (t : ThreadId) (g : Guard) : Encodes.Statement (.tuck t g) := rfl
theorem Encodes.ddup (t : ThreadId) (g : Guard) : Encodes.Statement (.ddup t g) := rfl
theorem Encodes.ddrop (t : ThreadId) (g : Guard) : Encodes.Statement (.ddrop t g) := rfl
theorem Encodes.dswap (t : ThreadId) (g : Guard) : Encodes.Statement (.dswap t g) := rfl
theorem Encodes.pick (t : ThreadId) (g : Guard) (n : BitVec 4) : Encodes.Statement (.pick t g n) := rfl
theorem Encodes.lit (t : ThreadId) (g : Guard) (n : BitVec 10) : Encodes.Statement (.lit t g n) := rfl
theorem Encodes.litx (t : ThreadId) (g : Guard) (b : BitVec 9) : Encodes.Statement (.litx t g b) := rfl
theorem Encodes.add (t : ThreadId) (g : Guard) : Encodes.Statement (.add t g) := rfl
theorem Encodes.sub (t : ThreadId) (g : Guard) : Encodes.Statement (.sub t g) := rfl
theorem Encodes.mul (t : ThreadId) (g : Guard) : Encodes.Statement (.mul t g) := rfl
theorem Encodes.muld (t : ThreadId) (g : Guard) : Encodes.Statement (.muld t g) := rfl
theorem Encodes.div (t : ThreadId) (g : Guard) : Encodes.Statement (.div t g) := rfl
theorem Encodes.divu (t : ThreadId) (g : Guard) : Encodes.Statement (.divu t g) := rfl
theorem Encodes.mod (t : ThreadId) (g : Guard) : Encodes.Statement (.mod t g) := rfl
theorem Encodes.modu (t : ThreadId) (g : Guard) : Encodes.Statement (.modu t g) := rfl
theorem Encodes.neg (t : ThreadId) (g : Guard) : Encodes.Statement (.neg t g) := rfl
theorem Encodes.abs (t : ThreadId) (g : Guard) : Encodes.Statement (.abs t g) := rfl
theorem Encodes.andW (t : ThreadId) (g : Guard) : Encodes.Statement (.andW t g) := rfl
theorem Encodes.orW (t : ThreadId) (g : Guard) : Encodes.Statement (.orW t g) := rfl
theorem Encodes.xorW (t : ThreadId) (g : Guard) : Encodes.Statement (.xorW t g) := rfl
theorem Encodes.notW (t : ThreadId) (g : Guard) : Encodes.Statement (.notW t g) := rfl
theorem Encodes.shl (t : ThreadId) (g : Guard) : Encodes.Statement (.shl t g) := rfl
theorem Encodes.shr (t : ThreadId) (g : Guard) : Encodes.Statement (.shr t g) := rfl
theorem Encodes.sar (t : ThreadId) (g : Guard) : Encodes.Statement (.sar t g) := rfl
theorem Encodes.rol (t : ThreadId) (g : Guard) : Encodes.Statement (.rol t g) := rfl
theorem Encodes.clz (t : ThreadId) (g : Guard) : Encodes.Statement (.clz t g) := rfl
theorem Encodes.popc (t : ThreadId) (g : Guard) : Encodes.Statement (.popc t g) := rfl
theorem Encodes.bswap2 (t : ThreadId) (g : Guard) : Encodes.Statement (.bswap2 t g) := rfl
theorem Encodes.bswap3 (t : ThreadId) (g : Guard) : Encodes.Statement (.bswap3 t g) := rfl
theorem Encodes.bswap4 (t : ThreadId) (g : Guard) : Encodes.Statement (.bswap4 t g) := rfl
theorem Encodes.bswap6 (t : ThreadId) (g : Guard) : Encodes.Statement (.bswap6 t g) := rfl
theorem Encodes.ext (t : ThreadId) (g : Guard) : Encodes.Statement (.ext t g) := rfl
theorem Encodes.ins (t : ThreadId) (g : Guard) : Encodes.Statement (.ins t g) := rfl
theorem Encodes.cp (t : ThreadId) (g : Guard) (cond : BitVec 3) (k : BitVec 2) : Encodes.Statement (.cp t g cond k) := rfl
theorem Encodes.cpn (t : ThreadId) (g : Guard) (cond : BitVec 3) (k : BitVec 2) : Encodes.Statement (.cpn t g cond k) := rfl
theorem Encodes.pset (t : ThreadId) (g : Guard) (k : BitVec 2) : Encodes.Statement (.pset t g k) := rfl
theorem Encodes.pinv (t : ThreadId) (g : Guard) (k : BitVec 2) : Encodes.Statement (.pinv t g k) := rfl
theorem Encodes.brs (t : ThreadId) (g : Guard) (e : BitVec 8) : Encodes.Statement (.brs t g e) := rfl
theorem Encodes.calls (t : ThreadId) (g : Guard) (e : BitVec 8) : Encodes.Statement (.calls t g e) := rfl
theorem Encodes.br (t : ThreadId) (g : Guard) : Encodes.Statement (.br t g) := rfl
theorem Encodes.call (t : ThreadId) (g : Guard) : Encodes.Statement (.call t g) := rfl
theorem Encodes.ret (t : ThreadId) (g : Guard) : Encodes.Statement (.ret t g) := rfl
theorem Encodes.nextW (t : ThreadId) (g : Guard) (f : BitVec 8) : Encodes.Statement (.nextW t g f) := rfl
theorem Encodes.kill (t : ThreadId) (g : Guard) : Encodes.Statement (.kill t g) := rfl
theorem Encodes.gate (t : ThreadId) (g : Guard) (k : BitVec 8) : Encodes.Statement (.gate t g k) := rfl
theorem Encodes.gret (t : ThreadId) (g : Guard) : Encodes.Statement (.gret t g) := rfl
theorem Encodes.reti (t : ThreadId) (g : Guard) : Encodes.Statement (.reti t g) := rfl
theorem Encodes.ld1 (t : ThreadId) (g : Guard) (form : AddrForm) : Encodes.Statement (.ld1 t g form) := rfl
theorem Encodes.ld2 (t : ThreadId) (g : Guard) (form : AddrForm) : Encodes.Statement (.ld2 t g form) := rfl
theorem Encodes.ld3 (t : ThreadId) (g : Guard) (form : AddrForm) : Encodes.Statement (.ld3 t g form) := rfl
theorem Encodes.ld4 (t : ThreadId) (g : Guard) (form : AddrForm) : Encodes.Statement (.ld4 t g form) := rfl
theorem Encodes.ld6 (t : ThreadId) (g : Guard) (form : AddrForm) : Encodes.Statement (.ld6 t g form) := rfl
theorem Encodes.lds1 (t : ThreadId) (g : Guard) (form : AddrForm) : Encodes.Statement (.lds1 t g form) := rfl
theorem Encodes.lds2 (t : ThreadId) (g : Guard) (form : AddrForm) : Encodes.Statement (.lds2 t g form) := rfl
theorem Encodes.lds3 (t : ThreadId) (g : Guard) (form : AddrForm) : Encodes.Statement (.lds3 t g form) := rfl
theorem Encodes.lds4 (t : ThreadId) (g : Guard) (form : AddrForm) : Encodes.Statement (.lds4 t g form) := rfl
theorem Encodes.ldd (t : ThreadId) (g : Guard) (form : AddrForm) : Encodes.Statement (.ldd t g form) := rfl
theorem Encodes.st1 (t : ThreadId) (g : Guard) (form : AddrForm) : Encodes.Statement (.st1 t g form) := rfl
theorem Encodes.st2 (t : ThreadId) (g : Guard) (form : AddrForm) : Encodes.Statement (.st2 t g form) := rfl
theorem Encodes.st3 (t : ThreadId) (g : Guard) (form : AddrForm) : Encodes.Statement (.st3 t g form) := rfl
theorem Encodes.st4 (t : ThreadId) (g : Guard) (form : AddrForm) : Encodes.Statement (.st4 t g form) := rfl
theorem Encodes.st6 (t : ThreadId) (g : Guard) (form : AddrForm) : Encodes.Statement (.st6 t g form) := rfl
theorem Encodes.std (t : ThreadId) (g : Guard) (form : AddrForm) : Encodes.Statement (.std t g form) := rfl
theorem Encodes.lr6 (t : ThreadId) (g : Guard) : Encodes.Statement (.lr6 t g) := rfl
theorem Encodes.sc6 (t : ThreadId) (g : Guard) : Encodes.Statement (.sc6 t g) := rfl
theorem Encodes.tas (t : ThreadId) (g : Guard) : Encodes.Statement (.tas t g) := rfl
theorem Encodes.cas6 (t : ThreadId) (g : Guard) : Encodes.Statement (.cas6 t g) := rfl
theorem Encodes.fence (t : ThreadId) (g : Guard) : Encodes.Statement (.fence t g) := rfl
theorem Encodes.flush (t : ThreadId) (g : Guard) : Encodes.Statement (.flush t g) := rfl
theorem Encodes.inval (t : ThreadId) (g : Guard) : Encodes.Statement (.inval t g) := rfl
theorem Encodes.pst (t : ThreadId) (g : Guard) : Encodes.Statement (.pst t g) := rfl
theorem Encodes.pld (t : ThreadId) (g : Guard) : Encodes.Statement (.pld t g) := rfl
theorem Encodes.psync (t : ThreadId) (g : Guard) : Encodes.Statement (.psync t g) := rfl
theorem Encodes.move (t : ThreadId) (g : Guard) (y : Option Nat) : Encodes.Statement (.move t g y) := rfl
theorem Encodes.fill (t : ThreadId) (g : Guard) (y : Option Nat) : Encodes.Statement (.fill t g y) := rfl
theorem Encodes.csum (t : ThreadId) (g : Guard) (y : Option Nat) : Encodes.Statement (.csum t g y) := rfl
theorem Encodes.tnow (t : ThreadId) (g : Guard) : Encodes.Statement (.tnow t g) := rfl
theorem Encodes.tadd (t : ThreadId) (g : Guard) : Encodes.Statement (.tadd t g) := rfl
theorem Encodes.tsub (t : ThreadId) (g : Guard) : Encodes.Statement (.tsub t g) := rfl
theorem Encodes.tcmp (t : ThreadId) (g : Guard) : Encodes.Statement (.tcmp t g) := rfl
theorem Encodes.tscale (t : ThreadId) (g : Guard) : Encodes.Statement (.tscale t g) := rfl
theorem Encodes.waitt (t : ThreadId) (g : Guard) : Encodes.Statement (.waitt t g) := rfl
theorem Encodes.wfe (t : ThreadId) (g : Guard) : Encodes.Statement (.wfe t g) := rfl
theorem Encodes.sev (t : ThreadId) (g : Guard) : Encodes.Statement (.sev t g) := rfl
theorem Encodes.getwork (t : ThreadId) (g : Guard) : Encodes.Statement (.getwork t g) := rfl
theorem Encodes.forward (t : ThreadId) (g : Guard) : Encodes.Statement (.forward t g) := rfl
theorem Encodes.doneW (t : ThreadId) (g : Guard) : Encodes.Statement (.doneW t g) := rfl
theorem Encodes.dropw (t : ThreadId) (g : Guard) : Encodes.Statement (.dropw t g) := rfl
theorem Encodes.tag (t : ThreadId) (g : Guard) : Encodes.Statement (.tag t g) := rfl
theorem Encodes.untag (t : ThreadId) (g : Guard) : Encodes.Statement (.untag t g) := rfl
theorem Encodes.setlaunch (t : ThreadId) (g : Guard) : Encodes.Statement (.setlaunch t g) := rfl
theorem Encodes.leash (t : ThreadId) (g : Guard) : Encodes.Statement (.leash t g) := rfl
theorem Encodes.unleash (t : ThreadId) (g : Guard) : Encodes.Statement (.unleash t g) := rfl
theorem Encodes.crc32 (t : ThreadId) (g : Guard) : Encodes.Statement (.crc32 t g) := rfl
theorem Encodes.crc32c (t : ThreadId) (g : Guard) : Encodes.Statement (.crc32c t g) := rfl
theorem Encodes.csum16 (t : ThreadId) (g : Guard) : Encodes.Statement (.csum16 t g) := rfl
theorem Encodes.csumupd (t : ThreadId) (g : Guard) : Encodes.Statement (.csumupd t g) := rfl
theorem Encodes.keyld (t : ThreadId) (g : Guard) : Encodes.Statement (.keyld t g) := rfl
theorem Encodes.gcmenc (t : ThreadId) (g : Guard) : Encodes.Statement (.gcmenc t g) := rfl
theorem Encodes.gcmdec (t : ThreadId) (g : Guard) : Encodes.Statement (.gcmdec t g) := rfl
theorem Encodes.sha256 (t : ThreadId) (g : Guard) : Encodes.Statement (.sha256 t g) := rfl
theorem Encodes.shachain (t : ThreadId) (g : Guard) : Encodes.Statement (.shachain t g) := rfl
theorem Encodes.lkp (t : ThreadId) (g : Guard) : Encodes.Statement (.lkp t g) := rfl
theorem Encodes.lkpx (t : ThreadId) (g : Guard) : Encodes.Statement (.lkpx t g) := rfl
theorem Encodes.lkpt (t : ThreadId) (g : Guard) : Encodes.Statement (.lkpt t g) := rfl
theorem Encodes.hashW (t : ThreadId) (g : Guard) : Encodes.Statement (.hashW t g) := rfl
theorem Encodes.seqrec (t : ThreadId) (g : Guard) : Encodes.Statement (.seqrec t g) := rfl
theorem Encodes.seqrst (t : ThreadId) (g : Guard) : Encodes.Statement (.seqrst t g) := rfl
theorem Encodes.customerHelperOp (t : ThreadId) (g : Guard) (f : BitVec 6) : Encodes.Statement (.customerHelperOp t g f) := rfl
theorem Encodes.helperCompletion (t : ThreadId) : Encodes.Statement (.helperCompletion t) := rfl
theorem Encodes.chResponse (rid : BitVec 8) (r0 : Cell) (r1 : Cell) : Encodes.Statement (.chResponse rid r0 r1) := rfl
theorem Encodes.chTimeout (t : ThreadId) : Encodes.Statement (.chTimeout t) := rfl
theorem Encodes.chEvent : Encodes.Statement (.chEvent) := rfl
theorem Encodes.storeDrain (t : ThreadId) (meet atReset : Bool) (issued : Nat) : Encodes.Statement (.storeDrain t meet atReset issued) := rfl
theorem Encodes.storeFault (t : ThreadId) : Encodes.Statement (.storeFault t) := rfl
theorem Encodes.dcacheFill (c : CoreId) (line : Nat) : Encodes.Statement (.dcacheFill c line) := rfl
theorem Encodes.icacheFill (c : CoreId) (waddr : WAddr) : Encodes.Statement (.icacheFill c waddr) := rfl
theorem Encodes.spillEngineSpill (t : ThreadId) (l : Level) (rs : Bool) : Encodes.Statement (.spillEngineSpill t l rs) := rfl
theorem Encodes.spillEngineFill (t : ThreadId) (rs : Bool) : Encodes.Statement (.spillEngineFill t rs) := rfl
theorem Encodes.modeSwitchRequest (c : CoreId) (det : Bool) : Encodes.Statement (.modeSwitchRequest c det) := rfl
theorem Encodes.modeSwitchComplete (c : CoreId) : Encodes.Statement (.modeSwitchComplete c) := rfl
theorem Encodes.btbInvalidate (c : CoreId) : Encodes.Statement (.btbInvalidate c) := rfl
theorem Encodes.waitLimit (t : ThreadId) : Encodes.Statement (.waitLimit t) := rfl
theorem Encodes.cas6Timeout (t : ThreadId) : Encodes.Statement (.cas6Timeout t) := rfl
theorem Encodes.semResponse (t : ThreadId) (old : Cell) (st : BitVec 3) : Encodes.Statement (.semResponse t old st) := rfl
theorem Encodes.fabResponse (tag : BitVec 8) (data : BitVec 384) (st : BitVec 2) : Encodes.Statement (.fabResponse tag data st) := rfl
theorem Encodes.fabricTimeout (tag : BitVec 8) : Encodes.Statement (.fabricTimeout tag) := rfl
theorem Encodes.ownerReset : Encodes.Statement (.ownerReset) := rfl
theorem Encodes.ownerResetAck (rom : Bool) : Encodes.Statement (.ownerResetAck rom) := rfl
theorem Encodes.timeStep : Encodes.Statement (.timeStep) := rfl
theorem Encodes.ppsEdge (bus : BitVec 96) : Encodes.Statement (.ppsEdge bus) := rfl
theorem Encodes.followLoad : Encodes.Statement (.followLoad) := rfl
theorem Encodes.ppsMiss : Encodes.Statement (.ppsMiss) := rfl
theorem Encodes.extIrqEdge (k : BitVec 8) : Encodes.Statement (.extIrqEdge k) := rfl
theorem Encodes.extRetract (k : BitVec 8) : Encodes.Statement (.extRetract k) := rfl
theorem Encodes.sourceSetPending (i : BitVec 9) : Encodes.Statement (.sourceSetPending i) := rfl
theorem Encodes.eventSet (t : ThreadId) : Encodes.Statement (.eventSet t) := rfl
theorem Encodes.interruptEntry (t : ThreadId) (inWindow : Bool) : Encodes.Statement (.interruptEntry t inWindow) := rfl
theorem Encodes.ticClaim (t : ThreadId) : Encodes.Statement (.ticClaim t) := rfl
theorem Encodes.machineCheckEntry : Encodes.Statement (.machineCheckEntry) := rfl
theorem Encodes.mcstatRead : Encodes.Statement (.mcstatRead) := rfl
theorem Encodes.wakeLatchRead (k : Fin 7) : Encodes.Statement (.wakeLatchRead k) := rfl
theorem Encodes.leashExpiry (t : ThreadId) : Encodes.Statement (.leashExpiry t) := rfl
theorem Encodes.leashOverrun (t : ThreadId) : Encodes.Statement (.leashOverrun t) := rfl
theorem Encodes.threadReset (ag : Agent) (t : ThreadId) : Encodes.Statement (.threadReset ag t) := rfl
theorem Encodes.coreReset (ag : Agent) (c : CoreId) : Encodes.Statement (.coreReset ag c) := rfl
theorem Encodes.tileReset (src : ResetSrc) (held : Bool) (pins : Pins) : Encodes.Statement (.tileReset src held pins) := rfl
theorem Encodes.powerOnReset (held : Bool) (pins : Pins) : Encodes.Statement (.powerOnReset held pins) := rfl
theorem Encodes.wakeFromOff (pins : Pins) : Encodes.Statement (.wakeFromOff pins) := rfl
theorem Encodes.watchdogKick (ag : Agent) (c : CoreId) : Encodes.Statement (.watchdogKick ag c) := rfl
theorem Encodes.watchdogConfigure (c : CoreId) (v : Cell) : Encodes.Statement (.watchdogConfigure c v) := rfl
theorem Encodes.watchdogBark (c : CoreId) : Encodes.Statement (.watchdogBark c) := rfl
theorem Encodes.watchdogBite (c : CoreId) (pins : Pins) : Encodes.Statement (.watchdogBite c pins) := rfl
theorem Encodes.heelStuck (t : ThreadId) : Encodes.Statement (.heelStuck t) := rfl
theorem Encodes.debugHalt : Encodes.Statement (.debugHalt) := rfl
theorem Encodes.haltComplete : Encodes.Statement (.haltComplete) := rfl
theorem Encodes.debugResume : Encodes.Statement (.debugResume) := rfl
theorem Encodes.debugStep : Encodes.Statement (.debugStep) := rfl
theorem Encodes.debugDetach : Encodes.Statement (.debugDetach) := rfl
theorem Encodes.debugSelect (t : ThreadId) : Encodes.Statement (.debugSelect t) := rfl
theorem Encodes.debugInject (ml : Bool) (w : PWord) : Encodes.Statement (.debugInject ml w) := rfl
theorem Encodes.dpcWrite (t : ThreadId) (pc : WAddr) : Encodes.Statement (.dpcWrite t pc) := rfl
theorem Encodes.whistleBreak : Encodes.Statement (.whistleBreak) := rfl
theorem Encodes.whistleReset (lowNs : Nat) (pins : Pins) : Encodes.Statement (.whistleReset lowNs pins) := rfl
theorem Encodes.frameTimeout : Encodes.Statement (.frameTimeout) := rfl
theorem Encodes.ident (fr : Frame) (cmd : BitVec 4) : Encodes.Statement (.ident fr cmd) := rfl
theorem Encodes.addrCmd (fr : Frame) : Encodes.Statement (.addrCmd fr) := rfl
theorem Encodes.rd (fr : Frame) : Encodes.Statement (.rd fr) := rfl
theorem Encodes.rdi (fr : Frame) : Encodes.Statement (.rdi fr) := rfl
theorem Encodes.wr (fr : Frame) (atReset : Bool) : Encodes.Statement (.wr fr atReset) := rfl
theorem Encodes.poll (fr : Frame) : Encodes.Statement (.poll fr) := rfl
theorem Encodes.termw (fr : Frame) : Encodes.Statement (.termw fr) := rfl
theorem Encodes.termr (fr : Frame) : Encodes.Statement (.termr fr) := rfl
theorem Encodes.whistleOperationEnd : Encodes.Statement (.whistleOperationEnd) := rfl
theorem Encodes.authChallenge (fr : Frame) : Encodes.Statement (.authChallenge fr) := rfl
theorem Encodes.authNonce (fr : Frame) : Encodes.Statement (.authNonce fr) := rfl
theorem Encodes.authStoreResponse (fr : Frame) : Encodes.Statement (.authStoreResponse fr) := rfl
theorem Encodes.authVerify (fr : Frame) : Encodes.Statement (.authVerify fr) := rfl
theorem Encodes.authLock (fr : Frame) : Encodes.Statement (.authLock fr) := rfl
theorem Encodes.terminalTransmit (c : CoreId) (v : Cell) : Encodes.Statement (.terminalTransmit c v) := rfl
theorem Encodes.terminalReceive (c : CoreId) : Encodes.Statement (.terminalReceive c) := rfl
theorem Encodes.itemDescriptor (c0 : Cell) (c1 : Cell) (c2 : Cell) (c3 : Cell) (kind : BitVec 2) :
    Encodes.Statement (.itemDescriptor c0 c1 c2 c3 kind) := rfl
theorem Encodes.cancel (c0 : Cell) (c1 : Cell) (c2 : Cell) (c3 : Cell) : Encodes.Statement (.cancel c0 c1 c2 c3) := rfl
theorem Encodes.fenceOut (c0 : Cell) (c1 : Cell) (c2 : Cell) (c3 : Cell) : Encodes.Statement (.fenceOut c0 c1 c2 c3) := rfl
theorem Encodes.fenceIn (c0 : Cell) (c1 : Cell) (c2 : Cell) (c3 : Cell) : Encodes.Statement (.fenceIn c0 c1 c2 c3) := rfl
theorem Encodes.fenceDrained (c0 : Cell) (c1 : Cell) (c2 : Cell) (c3 : Cell) : Encodes.Statement (.fenceDrained c0 c1 c2 c3) := rfl
theorem Encodes.stashBeat (beat : BitVec 14) (be : BitVec 64) (data : BitVec 512) : Encodes.Statement (.stashBeat beat be data) := rfl
theorem Encodes.slotFill : Encodes.Statement (.slotFill) := rfl
theorem Encodes.slotMove (t : ThreadId) : Encodes.Statement (.slotMove t) := rfl
theorem Encodes.ledgerAdvance : Encodes.Statement (.ledgerAdvance) := rfl
theorem Encodes.releaseRecord : Encodes.Statement (.releaseRecord) := rfl
theorem Encodes.drainedRecord (flow : BitVec 16) : Encodes.Statement (.drainedRecord flow) := rfl
theorem Encodes.flowReset : Encodes.Statement (.flowReset) := rfl
theorem Encodes.tamper : Encodes.Statement (.tamper) := rfl
theorem Encodes.kennelWipe : Encodes.Statement (.kennelWipe) := rfl
theorem Encodes.kennelOverwriteDone : Encodes.Statement (.kennelOverwriteDone) := rfl
theorem Encodes.borrowStart (c : CoreId) (owner : ThreadId) (base : BitVec 7) : Encodes.Statement (.borrowStart c owner base) := rfl
theorem Encodes.borrowRelease (c : CoreId) : Encodes.Statement (.borrowRelease c) := rfl
theorem Encodes.borrowCopyInDone (c : CoreId) : Encodes.Statement (.borrowCopyInDone c) := rfl
theorem Encodes.borrowCopyBackDone (c : CoreId) : Encodes.Statement (.borrowCopyBackDone c) := rfl
theorem Encodes.keepStoreWriteDone : Encodes.Statement (.keepStoreWriteDone) := rfl
theorem Encodes.scrubStep (walker : Fin 18) : Encodes.Statement (.scrubStep walker) := rfl
theorem Encodes.flashClear (bank : BitVec 7) : Encodes.Statement (.flashClear bank) := rfl
theorem Encodes.flashClearDone : Encodes.Statement (.flashClearDone) := rfl
theorem Encodes.ceCounterRead (b : Fin 86) : Encodes.Statement (.ceCounterRead b) := rfl
theorem Encodes.ceLogRead : Encodes.Statement (.ceLogRead) := rfl
theorem Encodes.ueLogRead : Encodes.Statement (.ueLogRead) := rfl
theorem Encodes.lossLogRead : Encodes.Statement (.lossLogRead) := rfl
theorem Encodes.coreNap (c : CoreId) : Encodes.Statement (.coreNap c) := rfl
theorem Encodes.coreDoze (c : CoreId) : Encodes.Statement (.coreDoze c) := rfl
theorem Encodes.coreWake (c : CoreId) : Encodes.Statement (.coreWake c) := rfl
theorem Encodes.timedWake (who : Option CoreId) : Encodes.Statement (.timedWake who) := rfl
theorem Encodes.tileSleep : Encodes.Statement (.tileSleep) := rfl
theorem Encodes.tileOff : Encodes.Statement (.tileOff) := rfl
theorem Encodes.pwrAck : Encodes.Statement (.pwrAck) := rfl
theorem Encodes.pwrWake : Encodes.Statement (.pwrWake) := rfl
theorem Encodes.profileLoadCommand (sel : BitVec 2) : Encodes.Statement (.profileLoadCommand sel) := rfl
theorem Encodes.profileLoadComplete : Encodes.Statement (.profileLoadComplete) := rfl
theorem Encodes.helperOffCommand (i : Fin 4) : Encodes.Statement (.helperOffCommand i) := rfl
theorem Encodes.helperOnCommand (i : Fin 4) : Encodes.Statement (.helperOnCommand i) := rfl
theorem Encodes.helperPowerOff (i : Fin 4) (delivered : Bool) : Encodes.Statement (.helperPowerOff i delivered) := rfl
theorem Encodes.helperReady (i : Fin 4) : Encodes.Statement (.helperReady i) := rfl
theorem Encodes.lcTransition (v : Cell) : Encodes.Statement (.lcTransition v) := rfl
theorem Encodes.lcTransitionComplete (pins : Pins) : Encodes.Statement (.lcTransitionComplete pins) := rfl
theorem Encodes.ternaryCommit (v : Cell) : Encodes.Statement (.ternaryCommit v) := rfl
theorem Encodes.streamReset (v : Cell) : Encodes.Statement (.streamReset v) := rfl
theorem Encodes.registerWrite (ag : Agent) (addr : BitVec 36) (v : Cell) (atReset : Bool) :
    Encodes.Statement (.registerWrite ag addr v atReset) := rfl
theorem Encodes.reservedEncoding (t : ThreadId) (g : Guard) (op : BitVec 12) : Encodes.Statement (.reservedEncoding t g op) := rfl
theorem Encodes.timeKeeperCycle : Encodes.Statement (.timeKeeperCycle) := rfl
theorem Encodes.wakeCompleted (who : Option CoreId) : Encodes.Statement (.wakeCompleted who) := rfl
theorem Encodes.framingError : Encodes.Statement (.framingError) := rfl
theorem Encodes.resetRelease (pins : Pins) : Encodes.Statement (.resetRelease pins) := rfl

end Sys2Proof.Laws
end

