-- ==== Sys2Proof/Laws/Words.lean ====
section
/-! SUPPORT. What running a word comes to: one law for every word whose own tests pass, which the claims about words cite
instead of unfolding the phases of R59. -/

namespace Sys2Proof.Laws

open Sys2Proof Sys2Proof.Machine

variable {t : ThreadId} {g : Guard} {s s1 : State} {sem : WordSem} {cells : List PCell}

theorem readFault_clean (rs : Bool) (h : Clean cells) : readFault rs cells = none := by
  have h1 : cells.any (fun c => decide (c.par ≠ 0)) = false := by
    simp only [List.any_eq_false, decide_eq_true_eq]
    exact fun c hc => not_not.mpr (h c hc).1
  have h2 : cells.any (fun c => decide (c.poison ≠ 0)) = false := by
    simp only [List.any_eq_false, decide_eq_true_eq]
    exact fun c hc => not_not.mpr (h c hc).2
  simp only [readFault, h1, h2, Bool.false_eq_true, if_false]

@[simp] theorem beginWord_arch : ((beginWord t s).thr t).arch = (s.thr t).arch := by simp [beginWord]
@[simp] theorem beginWord_guardPred (k : BitVec 2) : ((beginWord t s).thr t).guardPred k = (s.thr t).guardPred k := by
  simp [beginWord, Thread.guardPred]
@[simp] theorem beginWord_inj : ((beginWord t s).thr t).inj = (s.thr t).inj := by simp [beginWord]

theorem beginWord_curLevel : curLevel (beginWord t s) t = curLevel s t := by simp [curLevel]

/-- At retirement, where no comparator matches and the entry has no parity error, a result stands as it is. -/
@[simp] theorem retirePhase_quiet (kept : State) (r : WRes) : retirePhase t 0 false kept r = r := by
  cases r <;> simp [retirePhase]

/-- Of a thread whose word may issue the reorder-buffer entry has no parity error. -/
theorem robPar_of_canIssue (h : canIssue s t = true) : (s.thr t).robPar = false := by
  unfold canIssue at h
  simp only [Bool.and_eq_true, Bool.not_eq_true'] at h
  exact h.2

/-- A word in flight that no comparator matches, whose entry has no parity error, retires as its result says. -/
theorem atRetirement_quiet (r : WRes) (h : (s.thr t).robPar = false) : atRetirement t 0 s r = endFlight t r := by
  unfold atRetirement
  rw [h, retirePhase_quiet]

/-- The fetch of a word that issues goes on to the word's own phases. -/
theorem fetchPhase_of_issues (h : Issues t s) :
    fetchPhase t g sem (beginWord t s) = wordPhase t g sem (beginWord t s) := by
  obtain ⟨w, hw⟩ := h.clean
  have hi : ((beginWord t s).thr t).inj.isSome = false := by rw [beginWord_inj, h.mine]; rfl
  unfold fetchPhase
  rw [if_neg (by rw [hi]; exact Bool.false_ne_true), beginWord_arch]
  have hr : ((beginWord t s).thr t).robPar = false := by simpa [beginWord] using robPar_of_canIssue h.may
  simp only [hw, h.unwatched, hr, retirePhase_quiet]
  cases wordPhase t g sem (beginWord t s) <;> simp

/-- Step 5 of R59 passes. -/
theorem stackFault_none {n m : Nat} (h : Stands t n m cells s s1) : stackFault s t n m = none := by
  have h1 : ¬ (n ≠ 0 ∧ (s.stk t (curLevel s t) false).depth < (n : Int)) := fun hn => by
    have := h.deep hn.1
    unfold curDepth at this
    omega
  unfold stackFault
  rw [if_neg h1]
  by_cases hm : n < m
  · have := h.room hm
    unfold curDepth at this
    simp [this]
  · simp [hm]

/-- A word that has no test of its own before its operands runs its body on them. -/
theorem runWord_of_runs (h : Runs t g sem.pops sem.pushes cells s s1) (hi : sem.illegal = none)
    (hh : ∀ i, sem.helper = some i → helperPresent (beginWord t s) i = true)
    (ha : sem.allowed (rightsLevel (beginWord t s) t) = true) (hc : sem.test cells = none) :
    runWord t g sem s = finishWord t sem.transfer (sem.body cells s1) := by
  unfold runWord
  rw [if_pos h.issues.may]
  unfold doWord
  rw [fetchPhase_of_issues h.issues]
  congr 1
  have hill : illegalExc sem (beginWord t s) ((beginWord t s).thr t).arch.pc = none := by
    unfold illegalExc
    rw [hi]
    cases hhe : sem.helper with
    | none => rfl
    | some i => simp [hh i hhe]
  have hg : ((beginWord t s).thr t).guardPred g = true := by rw [beginWord_guardPred]; exact h.guarded
  unfold wordPhase
  simp only [hill, hg, Bool.true_eq_false, if_false, ha, stackFault_none h.stands]
  unfold operandPhase
  simp only [h.stands.filled, h.stands.top, hc]

/-- A plain word: no test but its operands'. -/
theorem runWord_plain {pops pushes : Nat} {body : List PCell → State → WRes} (h : Runs t g pops pushes cells s s1)
    (hc : Clean cells) : runWord t g (WordSem.plain pops pushes body) s = finishWord t none (body cells s1) :=
  runWord_of_runs (sem := WordSem.plain pops pushes body) h rfl (fun _ e => by cases e) rfl (readFault_clean false hc)

end Sys2Proof.Laws
end

