-- ==== Sys2Proof/Tests/Slice0.lean ====
section
/-! SUPPORT. Our own tests: an ill-formed command for each check of WellFormed, words spelled from the spec's encodings, and for each claim
with hypotheses a concrete state and operands that meet them. Expected values come from the spec's tables and examples. -/

namespace Sys2Proof.Tests

open Sys2Proof Sys2Proof.Machine

-- One theorem after another: a thread for each would ask for more memory than a check of the whole text has.
set_option Elab.async false

/-! ### Well-formed commands -/

theorem test_wf_reserved : (Instr.reservedEncoding 0 0 0x820).wf = false ∧ (Instr.reservedEncoding 0 0 0xF00).wf = true := by decide
theorem test_wf_dcacheFill : (Instr.dcacheFill 0 0x10000001).wf = false ∧ (Instr.dcacheFill 0 0x10000020).wf = true := by decide
theorem test_wf_icacheFill : (Instr.icacheFill 0 0xFFFF).wf = false ∧ (Instr.icacheFill 0 0x10000).wf = true := by decide
theorem test_wf_ident : (Instr.ident ⟨0, 0, 0⟩ 8).wf = false ∧ (Instr.ident ⟨0, 0, 0⟩ 9).wf = true := by decide
theorem test_wf_itemDescriptor : (Instr.itemDescriptor 0 0 0 0 1).wf = false ∧ (Instr.itemDescriptor 0 0 0 0 3).wf = true := by decide
theorem test_wf_whistleReset : (Instr.whistleReset 19039 ⟨0, 0⟩).wf = false ∧ (Instr.whistleReset 19040 ⟨0, 0⟩).wf = true := by decide
theorem test_wf_registerWrite : (Instr.registerWrite .whistle 0x50000000 0).wf = false ∧
    (Instr.registerWrite .whistle 0x40000008 0).wf = true := by decide
theorem test_wf_authChallenge : (Instr.authChallenge ⟨1, 0, 0⟩).wf = false ∧ (Instr.authChallenge ⟨0, 0, 0⟩).wf = true := by decide
theorem test_wf_authNonce : (Instr.authNonce ⟨0, 0, 0⟩).wf = false ∧ (Instr.authNonce ⟨1, 0, 0⟩).wf = true := by decide
theorem test_wf_authStoreResponse : (Instr.authStoreResponse ⟨4, 0, 0⟩).wf = false ∧
    (Instr.authStoreResponse ⟨3, 0, 0⟩).wf = true := by decide
theorem test_wf_authVerify : (Instr.authVerify ⟨5, 0, 0⟩).wf = false ∧ (Instr.authVerify ⟨4, 0, 0⟩).wf = true := by decide
theorem test_wf_authLock : (Instr.authLock ⟨4, 0, 0⟩).wf = false ∧ (Instr.authLock ⟨5, 0, 0⟩).wf = true := by decide
theorem test_wf_sourceSetPending : (Instr.sourceSetPending 0).wf = false ∧ (Instr.sourceSetPending 511).wf = true := by decide

/-! ### Decoding: the worked examples of chapter 3 -/

theorem test_decode_add : decodeWord 5 0x0820 = .add 5 0 ∧ decodeWord 5 0x1820 = .add 5 1 := by decide
theorem test_decode_literals : decodeWord 0 0x03FE = .lit 0 0 0x3FE ∧ decodeWord 0 0x0418 = .litx 0 0 24 := by decide
theorem test_decode_compare : decodeWord 0 0x0889 = .cp 0 0 2 1 ∧ decodeWord 0 0x18C3 = .pset 0 1 3 := by decide
theorem test_decode_forms : decodeWord 0 0x0C04 = .ld6 0 0 (.mode 0) ∧ decodeWord 0 0x0C14 = .ld6 0 0 (.mode 1) ∧
    decodeWord 0 0x0C79 = .ldd 0 0 (.mode 7) ∧ decodeWord 0 0x0C94 = .ld6 0 0 (.mode 9) := by decide
theorem test_decode_flow : decodeWord 0 0x06FF = .brs 0 0 0xFF ∧ decodeWord 0 0x0BFF = .kill 0 0 ∧ decodeWord 0 0x0A07 = .gate 0 0 7 := by decide
theorem test_decode_helper : decodeWord 0 0x0EA0 = .seqrec 0 0 ∧ decodeWord 0 0x0EC5 = .customerHelperOp 0 0 5 := by decide
theorem test_decode_reserved : decodeWord 0 0x0E04 = .reservedEncoding 0 0 0xE04 := by decide
theorem test_table_word : decodeTableWord 16 0x0820 = none := rfl

/-! ### States for the witnesses -/

/-- The running level's operand stack of thread 0 holds the given cells, top first. -/
def opsOn (s : State) (cs : List PCell) : State :=
  s.setStk 0 (curLevel s 0) false { s.stk 0 (curLevel s 0) false with res := cs }

/-- The running level's return stack of thread 0 holds the given cells, top first. -/
def retsOn (s : State) (cs : List PCell) : State :=
  s.setStk 0 (curLevel s 0) true { s.stk 0 (curLevel s 0) true with res := cs }

/-- Reset, with values on thread 0's operand stack. -/
def ops (vs : List Cell) : State := opsOn State.reset (vs.map PCell.of)

/-- Thread 0 at another level. -/
def atLevel (l : Level) (s : State) : State := s.modArch 0 fun a => { a with level := l }

/-- Thread 0 with a word in flight. -/
def inFlight (p : Pend) (s : State) : State := s.modThr 0 fun th => { th with pend := p }

/-- Thread 0's next word, in the boot ROM, issues. -/
def romIssues (s : State) : Bool :=
  canIssue s 0 && !s.dbg.stepping && (s.thr 0).inj.isNone && (s.thr 0).chainAt.isNone && decide (0xFF000 ≤ (s.thr 0).arch.pc.toNat) &&
    decide (pcHits (beginWord 0 s) 0 = 0)

/-- A word of thread 0 with guard g completes on clean operand cells. -/
def romRuns (g : Guard) (pops pushes : Nat) (cells : List PCell) (s : State) : Bool :=
  let k := (beginWord 0 s).stk 0 (curLevel (beginWord 0 s) 0) false
  romIssues s && (s.thr 0).guardPred g && decide (pops ≠ 0 → (pops : Int) ≤ k.depth) &&
    (decide (pushes ≤ pops) || k.fits (k.depth - pops + pushes)) && decide (pops ≤ k.res.length) &&
    decide (k.res.take pops = cells) && cells.all fun c => decide (c.par = 0) && decide (c.poison = 0)

theorem issues_rom {s : State} (h : romIssues s = true) : Issues 0 s := by
  simp only [romIssues, Bool.and_eq_true, decide_eq_true_eq, Bool.not_eq_true', Option.isNone_iff_eq_none] at h
  obtain ⟨⟨⟨⟨⟨h1, h2⟩, h3⟩, hc⟩, h4⟩, h5⟩ := h
  refine ⟨h1, h2, h3, ⟨Config.bootWord (s.thr 0).arch.pc.toNat, ?_⟩, h5⟩
  have hlt := (s.thr 0).arch.pc.isLt
  have e1 : ¬ (s.thr 0).arch.pc.toNat < 0x8000 := by omega
  have e2 : ¬ (0x10000 ≤ (s.thr 0).arch.pc.toNat ∧ (s.thr 0).arch.pc.toNat < 0x90000) := by omega
  have e3 : 0xFF000 ≤ (s.thr 0).arch.pc.toNat ∧ (s.thr 0).arch.pc.toNat < 0x100000 := by omega
  have ec : ((beginWord 0 s).thr 0).chainAt = none := by simpa [beginWord] using hc
  unfold threadFetch
  rw [ec]
  unfold fetchWord pregion
  simp only [Option.bind_none, e1, e2, e3, and_self, if_false, if_true]

theorem clean_of {cells : List PCell} (h : (cells.all fun c => decide (c.par = 0) && decide (c.poison = 0)) = true) :
    Clean cells := by
  intro c hc
  have := List.all_eq_true.mp h c hc
  simpa using this

theorem runs_rom {g : Guard} {pops pushes : Nat} {cells : List PCell} {s : State} (h : romRuns g pops pushes cells s = true) :
    Runs 0 g pops pushes cells s (beginWord 0 s) ∧ Clean cells := by
  simp only [romRuns, Bool.and_eq_true, Bool.or_eq_true, decide_eq_true_eq] at h
  obtain ⟨⟨⟨⟨⟨⟨h1, h2⟩, h3⟩, h4⟩, h5⟩, h6⟩, h7⟩ := h
  refine ⟨⟨issues_rom h1, h2, h3, fun hlt => h4.resolve_left (by omega), ?_, h6⟩, clean_of (by simpa using h7)⟩
  exact Laws.ensure_resident h5

/-- Values as operand cells. -/
def cellsOf (vs : List Cell) : List PCell := vs.map PCell.of

/-- A check of operand words of many shapes: pops, pushes and the values on the stack. -/
def shapesRun (xs : List (Nat × Nat × List Cell)) : Bool :=
  xs.all fun x => romRuns 0 x.1 x.2.1 (cellsOf (x.2.2.take x.1)) (ops x.2.2)

/-! ### Witnesses: words -/

theorem test_ShufflesAndLiterals : shapesRun [(1, 2, [7]), (1, 0, [7]), (2, 2, [8, 7]), (2, 3, [8, 7]), (3, 3, [9, 8, 7]), (2, 1, [8, 7]),
    (2, 4, [8, 7]), (2, 0, [8, 7]), (4, 4, [4, 3, 2, 1]), (1, 2, [5]), (3, 4, [1, 2, 3]), (0, 1, []), (1, 1, [2 ^ 47])] = true := by decide
theorem test_pick15 : romRuns 0 16 17 (cellsOf (List.replicate 16 3)) (ops (List.replicate 16 3)) = true := by decide
theorem test_SquashedWords : romIssues State.reset = true ∧ (State.reset.thr 0).guardPred 1 = false ∧
    encodeParts (.brs 0 1 4) = some (1, 0x604) ∧ isFieldForm (.brs 0 1 4) = false := by decide
/-- Every helper class stands in the reset state but the customer's, which the tile's build decides. -/
theorem test_SquashedWords_helpers : ∀ k ≤ 4, helperPresent { State.reset with help := { State.reset.help with chPresent := true } } k = true := by
  decide
theorem test_OperandTests : romIssues (ops [5]) = true ∧ ((beginWord 0 (ops [5])).stk 0 .M false).depth < 2 ∧
    romIssues (ops [5, 6]) = true ∧ (2 : Int) ≤ ((beginWord 0 (ops [5, 6])).stk 0 .M false).depth := by decide
/-- A stack whose area is used up. -/
theorem test_OperandTests_full :
    let s := State.reset.setStk 0 .M false { State.reset.stk 0 .M false with hi := (State.reset.stk 0 .M false).base + 6, res := [PCell.of 1] }
    romIssues s = true ∧ ((s.stk 0 .M false).fits ((s.stk 0 .M false).depth + 1) = false) ∧ 1 ≤ (s.stk 0 .M false).depth := by decide
theorem test_WordFrame : romRuns 0 2 1 (cellsOf [2, 3]) (ops [2, 3]) = true ∧ 2 ≤ ((ops [2, 3]).stk 0 .M false).res.length ∧
    residents (ops [2, 3]) 0 false + 1 ≤ 18 := by decide
/-- The products and sums of R37 and R95: 0x4000_0000_0000 × 2 lies outside the signed range. -/
theorem test_ArithmeticResults : shapesRun [(2, 1, [2, 0x400000000000]), (1, 1, [0x800000000000]), (2, 2, [0x800000000000, 0x800000000000])] =
    true ∧ ¬ ((0x400000000000 : Cell).toInt * (2 : Cell).toInt < 2 ^ 47) := by decide
theorem test_Divisions : shapesRun [(2, 2, [2, 0xFFFFFFFFFFF9]), (2, 1, [2, 7]), (2, 2, [0, 5]), (2, 1, [0, 5])] = true ∧
    ((beginWord 0 (ops [0, 5])).thr 0).arith.dzTrap = false ∧
    (let s := (ops [0, 5]).modThr 0 fun th => { th with arith := { th.arith with dzTrap := true } }
     romRuns 0 2 2 (cellsOf [0, 5]) s = true ∧ romRuns 0 2 1 (cellsOf [0, 5]) s = true ∧
       ((beginWord 0 s).thr 0).arith.dzTrap = true) := by decide
theorem test_LogicShiftsAndFields : shapesRun [(2, 1, [48, 9]), (2, 1, [47, 9]), (1, 1, [1]), (3, 1, [3, 13, 0xA00C]), (3, 1, [0, 48, 1]),
    (4, 1, [12, 0, 5, 6])] = true := by decide
theorem test_PredicateResults : shapesRun [(2, 0, [1, 0xFFFFFFFFFFFF]), (1, 0, [1]), (0, 0, [])] = true ∧ romIssues State.reset = true := by
  decide
theorem test_ControlTransfers : shapesRun [(0, 0, []), (1, 0, [0xFFFFF])] = true ∧ rsRoom (beginWord 0 State.reset) 0 1 = true := by decide
/-- An ADDR entry on top, for RET. -/
theorem test_ReturnResult : let s := retsOn State.reset [PCell.of 0x400000000201]
    romRuns 0 0 0 [] s = true ∧ 0 < curDepth (beginWord 0 s) 0 true ∧
      ((beginWord 0 s).stk 0 .M true).res = [PCell.of 0x400000000201] ∧ (0x400000000201 : Cell).extractLsb' 46 2 = 1 := by decide
/-- COUNT entries of the NEXT at the reset word: 0 and the greatest count; and a first arrival with n at 0, 1 and 2²⁶. -/
theorem test_LoopResults : let s := fun (c : Cell) => retsOn State.reset [PCell.of c]
    romRuns 0 0 0 [] (s 0x8000000FF000) = true ∧ 0 < curDepth (beginWord 0 (s 0x8000000FF000)) 0 true ∧
    romRuns 0 0 0 [] (s 0xBFFFFFFFF000) = true ∧ (State.reset.thr 0).arch.pc = 0xFF000 := by decide
theorem test_LoopResults_counts : BitVec.ofNat 48 (2 * 2 ^ 46 + 0 * 2 ^ 20 + 0xFF000) = (0x8000000FF000 : Cell) ∧
    BitVec.ofNat 48 (2 * 2 ^ 46 + 67108863 * 2 ^ 20 + 0xFF000) = (0xBFFFFFFFF000 : Cell) := by decide
theorem test_LoopResults_first : shapesRun [(0, 0, [0]), (0, 0, [1]), (0, 0, [0x4000000])] = true ∧
    curDepth (beginWord 0 (ops [0x4000000])) 0 true = 0 ∧ 0 < curDepth (beginWord 0 (ops [0x4000000])) 0 false := by decide
theorem test_BreakAndKillResults : romRuns 0 0 0 [] State.reset = true ∧
    ((State.reset.cor (0 : ThreadId).core).brkhalt && State.reset.dbg.attached) = false ∧ (State.reset.thr 0).cur = none := by decide

/-! ### Witnesses: entries, gates, memory -/

/-- Thread 0 at T level, in the boot ROM. -/
def teeState : State := atLevel .T State.reset

theorem test_ExceptionEntry : let l := exceptionLevel State.reset 0 7
    let a := entryArch (State.reset.thr 0).arch l
    l = .M ∧ (State.reset.thr 0).inj = none ∧ (a.stk l).rs.fits ((a.stk l).rs.depth + 2) = true ∧
    ∃ w, fetchWord State.reset (0 : ThreadId).core 0xFFE38 = (.word w, State.reset) :=
  ⟨by decide, by decide, by decide, _, rfl⟩
/-- An exception of T level that its floor leaves at T: the vector stands in the local program RAM, which reset fills with KILL. -/
theorem test_ExceptionEntry_low :
    let s := teeState.modCor 0 fun k => { k with xfloor := 0x00080000 }
    let a := entryArch (s.thr 0).arch .T
    exceptionLevel s 0 7 = .T ∧ (a.stk .T).rs.fits ((a.stk .T).rs.depth + 2) = true ∧
    ∃ w, fetchWord s (0 : ThreadId).core 0x00038 = (.word w, s) :=
  ⟨by decide, by decide, 0x0BFF, rfl⟩

/-- Gate 5: open to T, to M level, one argument that is no pointer, one result, its code at word 0x12345. -/
def gated : State := opsOn { teeState with gates := [(5, { enta := 0xC50000012345, entb := 0x100000000000 })] } [PCell.of 9]

theorem test_GateResult : let e := smGet GateEntry.boot gated.gates 5
    romRuns 0 0 0 [] gated = true ∧ curLevel gated 0 = .T ∧ e.enta.getLsbD 47 = true ∧ e.entb.getLsbD 44 = true ∧
    e.enta.extractLsb' 45 2 = levelBits .M ∧ e.narg = 1 ∧ (e.narg : Int) ≤ curDepth gated 0 false ∧ e.enta.extractLsb' 33 7 = 0 ∧
    curTop (beginWord 0 gated) 0 false e.narg = [PCell.of 9] ∧
    (gateStacks e (((beginWord 0 gated).thr 0).arch.stk .M)).2 = false := by decide
theorem test_GateResult_filled : ensureCur 0 false 1 (beginWord 0 gated) = some (beginWord 0 gated) :=
  Laws.ensure_resident (by decide)

/-- Inside a gate at M level, called from T, with one result. -/
def inGate : State := (ops [9]).modArch 0 fun a =>
  a.setGlink .M { valid := true, caller := .T, nres := 1, frames := 0, gate := 5, rpc := 0x100 }

theorem test_GateReturnResult : let k := (inGate.thr 0).arch.glink .M
    romRuns 0 0 0 [] inGate = true ∧ curLevel inGate 0 = .M ∧ k.valid = true ∧ k.frames = 0 ∧ k.nres.toNat = 1 ∧
    1 ≤ curDepth inGate 0 false ∧ levelNum k.caller < 2 ∧ (inGate.stk 0 .T false).fits ((inGate.stk 0 .T false).depth + 1) = true ∧
    curTop (beginWord 0 inGate) 0 false 1 = [PCell.of 9] := by decide

/-- A frame of M level that returns to T, with p1 and HANDLER set. -/
def framed : State := retsOn State.reset [PCell.of 0xE20000000000, PCell.of 0xC00000100200]

theorem test_ReturnFromEntry : romRuns 0 0 0 [] framed = true ∧ curLevel framed 0 = .M ∧ 2 ≤ curDepth (beginWord 0 framed) 0 true ∧
    ((beginWord 0 framed).stk 0 .M true).res = [PCell.of 0xE20000000000, PCell.of 0xC00000100200] ∧
    (0xE20000000000 : Cell).extractLsb' 46 2 = 3 ∧ (0xC00000100200 : Cell).extractLsb' 46 2 = 3 ∧
    (0xE20000000000 : Cell).extractLsb' 44 2 = levelBits .M ∧ (0xE20000000000 : Cell).extractLsb' 42 2 = levelBits .T ∧
    framed.tic.src = [] ∧ residents (beginWord 0 framed) 0 true ≤ 24 := by decide

/-- Values on thread 0's operand stack, with no stored byte anywhere. -/
def bare (vs : List Cell) : State := { ops vs with mem := [] }

theorem test_LoadsAndAddresses : romRuns 0 1 1 (cellsOf [0x1000]) (bare [0x1000]) = true ∧
    (∃ s2, LoadsFrom 0 .load (effAddr .base 6 [PCell.of 0x1000]) 6 [0, 0, 0, 0, 0, 0] (beginWord 0 (bare [0x1000])) s2) ∧
    ∃ s2, LoadsFrom 0 .lr (effAddr .base 6 [PCell.of 0x1002]) 6 [0, 0, 0, 0, 0, 0] (beginWord 0 (bare [0x1002])) s2 :=
  ⟨by decide, ⟨_, ⟨.own, rfl, by decide, by decide, fun _ => by decide, by decide, _, rfl, by decide, by decide⟩, by decide⟩,
    ⟨_, ⟨.own, rfl, by decide, by decide, fun h => by simp at h, by decide, _, rfl, by decide, by decide⟩, by decide⟩⟩
/-- Every form's shape of operands: an index over the address, and an updated address under a double's two cells. -/
theorem test_LoadsAndAddresses_forms : shapesRun [(1, 1, [0x1000]), (1, 2, [0x1000]), (1, 3, [0x1000]), (2, 1, [2, 0x1000]),
    (2, 2, [2, 0x1000])] = true := by decide
/-- A load of host memory past the D-cache, one that a D-cache line answers, one of a register, and one that a buffered store covers. -/
theorem test_LoadElsewhere :
    let s := beginWord 0 (bare [0x20000004])
    checkAccess s 0 (accLevel s 0) .load 0x20000004 6 0 = .ok .host ∧ storesOf s 0 = [] ∧ ownerHeld s 0 = false ∧
      freeTag s.fab = some 0 ∧ dataHits s 0 false 0x20000004 6 = 0 := ⟨rfl, by decide, by decide, by decide, by decide⟩
theorem test_LoadElsewhere_line :
    let l : DLine := { addr := 0x10000020, bytes := List.replicate 48 (encByte 7) }
    let s := beginWord 0 ((bare [0x10000026]).modCor 0 fun k => { k with dlines := [l] })
    checkAccess s 0 (accLevel s 0) .load 0x10000026 6 0 = .ok .shared ∧ forwardFor s 0 false .shared 0x10000026 6 = .read ∧
      usesDcache s 0 .shared 0x10000026 6 = true ∧ findDline (s.cor 0) 0x10000020 = some l ∧
      lineBytes l 0x10000026 6 = some [7, 7, 7, 7, 7, 7] := ⟨rfl, by decide, by decide, by decide, by decide⟩
theorem test_LoadElsewhere_register :
    let s := beginWord 0 (bare [0x40000008])
    checkAccess s 0 (accLevel s 0) .load 0x40000008 6 0 = .ok .reg ∧ storesOf s 0 = [] ∧
      regAt (some 0) 0x40000008 = some (.tile 1) := ⟨rfl, by decide, by decide⟩
/-- A store of thread 0 that waits in the buffer. -/
def storeAt (a : BitVec 36) (bs : List Byte) : SbEntry :=
  { thread := 0, lvl := .M, ea := a, bytes := bs, par := 0, phase := .waiting }
theorem test_LoadElsewhere_forward :
    let s := beginWord 0 ((bare [0x1002]).modCor 0 fun k => { k with sb := [storeAt 0x1002 [1, 2, 3, 4, 5, 6]] })
    checkAccess s 0 (accLevel s 0) .load 0x1002 6 0 = .ok .own ∧
      forwardFor s 0 false .own 0x1002 6 = .forward [1, 2, 3, 4, 5, 6] false := ⟨rfl, by decide⟩
theorem test_StoresAndAtomics :
    let s := bare [0x1002, 5]
    romRuns 0 2 0 (cellsOf [0x1002, 5]) s = true ∧
      checkAccess (beginWord 0 s) 0 (accLevel (beginWord 0 s) 0) .store 0x1002 6 5 = .ok .own ∧
      dataHits (beginWord 0 s) 0 true 0x1002 6 = 0 ∧ ((beginWord 0 s).cor 0).sb.length < 8 ∧ storesOf (beginWord 0 s) 0 = [] ∧
      checkAccess (beginWord 0 s) 0 (accLevel (beginWord 0 s) 0) .sc 0x1002 6 5 = .ok .own :=
  ⟨by decide, rfl, by decide, by decide, by decide, rfl⟩
theorem test_StoresAndAtomics_double : romRuns 0 3 1 (cellsOf [0x1002, 5, 6]) (bare [0x1002, 5, 6]) = true := by decide
theorem test_Atomics_tas :
    let s := beginWord 0 (bare [0x1002])
    romRuns 0 1 1 (cellsOf [0x1002]) (bare [0x1002]) = true ∧ checkAccess s 0 (accLevel s 0) .sc 0x1002 1 0 = .ok .own ∧
      readExc 0x1002 (readTarget s 0 .own (viaOf s 0 (accLevel s 0) .own) 0x1002 1).1 = none ∧
      readBytes (readTarget s 0 .own (viaOf s 0 (accLevel s 0) .own) 0x1002 1).1 = [0] := ⟨by decide, rfl, by decide, by decide⟩
theorem test_Atomics_cas6 :
    let s := bare [0x20000004, 1, 2]
    romRuns 0 3 2 (cellsOf [0x20000004, 1, 2]) s = true ∧
      checkAccess (beginWord 0 s) 0 (accLevel (beginWord 0 s) 0) .cas 0x20000004 6 0 = .ok .host ∧
      ownerHeld (beginWord 0 s) 0 = false ∧ dataHits (beginWord 0 s) 0 true 0x20000004 6 = 0 := ⟨by decide, rfl, by decide, by decide⟩
theorem test_OrderAndCacheResults : shapesRun [(0, 0, []), (1, 0, [0xFFFFFFFFF]), (2, 0, [0x10000, 0x820]), (2, 0, [0x8FFFF, 0x820]),
    (1, 1, [0x8FFFF]), (1, 0, [0x10000])] = true ∧ storesOf (beginWord 0 State.reset) 0 = [] ∧ curLevel State.reset 0 ≠ .T := by decide
theorem test_OrderAndCacheResults_word : (readShared State.reset 0x8FFFF).1 = (0x0BFF, false) := by decide +kernel
/-! ### Witnesses: block words, time, waits, work, leashes -/

/-- No thread has a block instruction or a boot ROM's copy in flight. -/
def blockless (s : State) : Bool := threadIds.all fun t => match (s.thr t).pend with
  | .block _ => false
  | .rom _ => false
  | _ => true

theorem noBlock_of {s : State} (h : blockless s = true) (u : ThreadId) (b : BlockState) : (s.thr u).pend ≠ .block b := by
  intro e
  have := List.all_eq_true.mp h u (List.mem_finRange u)
  rw [e] at this
  exact Bool.false_ne_true this

theorem noCopy_of {s : State} (h : blockless s = true) (u : ThreadId) (r : RomStage) : (s.thr u).pend ≠ .rom r := by
  intro e
  have := List.all_eq_true.mp h u (List.mem_finRange u)
  rw [e] at this
  exact Bool.false_ne_true this

theorem quiet_of {s : State} (h : blockless s = true) (ha : s.held = []) (hd : s.dbg.stepping = false ∧ s.dbg.injWait = none) : Quiet s :=
  ⟨noBlock_of h, noCopy_of h, ha, hd.1, hd.2⟩

/-- n, a destination and a source: 6 bytes, and 7. -/
theorem test_BlockResults : shapesRun [(3, 0, [6, 0x1000, 0x2000]), (3, 1, [6, 0x1000, 0x2000]), (3, 0, [7, 0x1000, 0x2000]),
    (3, 1, [7, 0x1000, 0x2000])] = true ∧ storesOf (beginWord 0 (bare [7, 0x1000, 0x2000])) 0 = [] := by decide
theorem test_BlockResults_steps : let s := beginWord 0 (bare [6, 0x1000, 0x2000])
    (∃ s2, BlockReads 0 0x2000 6 [0, 0, 0, 0, 0, 0] s s2) ∧ BlockWrites 0 0x1000 6 .own s :=
  ⟨⟨_, ⟨.own, _, rfl, by decide, rfl, by decide, by decide⟩, by decide⟩, ⟨rfl, by decide, by decide⟩⟩
theorem test_BlockResults_none : shapesRun [(3, 0, [0, 1, 2]), (3, 1, [0, 1, 2])] = true := by decide

theorem test_TimeResults : shapesRun [(0, 2, []), (4, 2, [1, 2, 3, 4]), (4, 1, [1, 2, 3, 4]), (3, 2, [0x020000000000, 5, 6])] = true := by decide

/-- A limit in the past, one to come, and one that never comes, for the three waits. -/
theorem test_WaitsAndEvents : shapesRun [(2, 0, [0, 0]), (2, 1, [1, 0]), (2, 0, [0x800000000000, 0])] = true ∧
    currentItem (beginWord 0 (ops [0, 0])) 0 = none ∧ ((beginWord 0 (ops [0, 0])).thr 0).slot = none ∧
    ((beginWord 0 (ops [0, 0])).thr 0).ev = false := by decide
theorem test_WaitsAndEvents_passed : (0 : Cell).getLsbD 47 = false ∧ timeValue 0 0 ≤ ((beginWord 0 (ops [0, 0])).copyNow 0 : Int) :=
  ⟨by decide, Int.natCast_nonneg _⟩
theorem test_WaitEnds : let s := inFlight (.waitt { hi := 0, lo := 0 }) (ops [0, 0])
    Resumes 0 2 s s ∧ (s.thr 0).pend = .waitt { hi := 0, lo := 0 } := ⟨⟨by decide, by decide, by decide, Laws.ensure_resident (by decide)⟩, by decide⟩
/-- SEV of the last thread from M level, and of a thread of another core from T level. -/
theorem test_SendEvent : shapesRun [(1, 0, [127])] = true ∧ ((beginWord 0 (ops [127])).thr 127).pend = .none ∧
    romRuns 0 1 0 (cellsOf [127]) (opsOn teeState (cellsOf [127])) = true ∧ curLevel (opsOn teeState (cellsOf [127])) 0 = .T ∧
    (127 : ThreadId).core ≠ (0 : ThreadId).core := by decide

/-- An item of flow 1, sequence 5, at node 3. -/
def anItem (p : Place) : Item := { emptyHole State.reset 1 5 with node := 3, place := p }

/-- The item stands in the tile, in its visit on thread 0 where it is current; node 3 is enabled, with ATOMIC-TAG order. -/
def withItem (x : Item) (s : State) : State :=
  { s.modThr 0 fun th => { th with cur := if x.place = .current 0 then some x.id else none } with
    fetch := { s.fetch with items := [x], nodes := [(3, { Node.boot with en := true, ord := .atomicTag })] } }

/-- Reset with an item in its visit on thread 0, and values on its operand stack. -/
def visiting (vs : List Cell) : State := withItem (anItem (.current 0)) (ops vs)

/-- FORWARD to no destination, to node 3, to port 1023. -/
def forwards (c : Cell) : Bool := romRuns 0 1 0 (cellsOf [c]) (visiting [c]) &&
  decide (currentItem (beginWord 0 (visiting [c])) 0 = some (anItem (.current 0))) && ((beginWord 0 (visiting [c])).nodeOf 3).en
theorem test_WorkWords : forwards 0 = true ∧ forwards 0x400000000003 = true ∧ forwards 0x8000000003FF = true := by decide
theorem test_WorkWords_ends : let s := beginWord 0 (visiting [])
    romRuns 0 0 0 [] (visiting []) = true ∧ storesOf s 0 = [] ∧ (anItem (.current 0)).tag = none ∧
    (∀ x ∈ s.fetch.items, x.tag = none) ∧ s.fetch.items.countP (fun x => decide (x.id = (anItem (.current 0)).id)) = 1 ∧
    (anItem (.current 0)).marked = false ∧ (anItem (.current 0)).dest = .none := by decide
theorem test_WorkWords_marked : let x := { anItem (.current 0) with marked := true }
    romRuns 0 0 0 [] (withItem x State.reset) = true ∧ currentItem (beginWord 0 (withItem x State.reset)) 0 = some x := by decide
theorem test_WorkWords_tag : let s := visiting [5, 6, 0xFFFFFFFF]
    romRuns 0 3 1 (cellsOf [5, 6, 0xFFFFFFFF]) s = true ∧ ((beginWord 0 s).nodeOf 3).ord = .atomicTag := by decide
/-- A launch time exactly one second ahead of the least copy. -/
theorem test_WorkWords_launch : romRuns 0 2 0 (cellsOf [1, 0]) (visiting [1, 0]) = true ∧
    timeValue 1 0 ≤ ((beginWord 0 (visiting [1, 0])).copyNow 0 : Int) + 65536000000000 := by
  refine ⟨by decide, ?_⟩
  rw [show timeValue 1 0 = 65536000000000 from rfl]
  have := Int.natCast_nonneg ((beginWord 0 (visiting [1, 0])).copyNow 0)
  omega

/-- Above the cap and below it; a leash that runs. -/
theorem test_Leashes : shapesRun [(1, 0, [0xFFFFFFFFFFFF]), (1, 0, [0]), (0, 0, [])] = true := by decide
/-- A leash of T level that has run out, and its overrun at a boundary. -/
def leashed (l : LeashReg) : State := State.reset.modThr 0 fun th => { th with leash := l }
theorem test_LeashEnds : let r := { LeashReg.clear with on := true, lvl := .T }
    ((leashed r).thr 0).leash = r ∧ r.count = 0 ∧ (leashed r).frozen = false ∧ r.ovrpend = false := by decide
theorem test_LeashEnds_overrun : let s := leashed { LeashReg.clear with ovrpend := true }
    (s.thr 0).leash.nest = 0 ∧ atBoundary s 0 = true ∧ interruptWaits s 0 = false ∧ (s.thr 0).sfPend = [] ∧
    (s.thr 0).pend = .none ∧ (s.thr 0).inj = none := by decide

/-! ### Witnesses: helpers -/

/-- A helper word with its operands, top first, on the stack, its ranges checked. -/
def launches (k : HelperKind) (vs : List Cell) : Bool :=
  let s := beginWord 0 (ops vs)
  romRuns 0 k.pops k.pushes (cellsOf vs) (ops vs) && helperPresent s k.cls && decide (launchExc s 0 k vs = none) &&
    decide (rangeHits s 0 (stackRanges k vs) = 0)
theorem test_HelperWords : launches .crc32 [4, 0x1000, 0] = true ∧ launches .csumupd [1, 2, 3] = true ∧ launches .keyld [64, 0x10700000] = true ∧
    launches .gcmenc [0x1002] = true ∧ launches .lkpt [1, 2] = true ∧ launches .hash [1, 2] = true ∧ launches .seqrst [17] = true := by decide
/-- No thread asks for a stream. -/
def noAsk (s : State) : Bool := threadIds.all fun u => (seqStream s u).isNone
theorem test_HelperWords_seqrec : let s := beginWord 0 (ops [17, 100])
    romRuns 0 2 1 (cellsOf [17, 100]) (ops [17, 100]) = true ∧ launchExc s 0 .seqrec [17, 100] = none ∧
    s.help.seqBusy 17 = false ∧ noAsk s = true ∧ s.help.seqPend = [] ∧ s.now < 2 ^ 47 * 65536000000000 := by decide
theorem noAsk_of {s : State} (h : noAsk s = true) (u : ThreadId) : seqStream s u = none := by
  simpa using List.all_eq_true.mp h u (List.mem_finRange u)
theorem test_HelperWords_absent :
    let s := { State.reset with help := { State.reset.help with ready := 0, chPresent := false } }
    romIssues s = true ∧ s.help.ready.getLsbD HelperKind.crc32.cls = false ∧ s.help.chPresent = false := by decide

/-- An operation in flight on thread 0 with its operands on the stack. -/
def helping (k : HelperKind) (vs : List Cell) : State := inFlight (.helper k vs) (bare vs)
theorem test_Completes : ∀ k ∈ [HelperKind.crc32, .crc32c, .csum16, .csumupd, .keyld, .gcmenc, .gcmdec, .sha256, .shachain, .lkp, .lkpx, .lkpt,
      .hash, .seqrec, .seqrst],
    let vs : List Cell := List.replicate k.pops 0
    mayWake (helping k vs) 0 = true ∧ ((helping k vs).thr 0).pend = .helper k vs ∧ queuedFor (helping k vs) 0 k.cls = false ∧
    k.pops ≤ ((helping k vs).stk 0 (curLevel (helping k vs) 0) false).res.length := by decide
theorem completes_of {k : HelperKind} {vs : List Cell} {s : State}
    (h1 : mayWake s 0 = true ∧ queuedFor s 0 k.cls = false ∧ (s.thr 0).robPar = false ∧ helperHits s 0 k vs = 0 ∧
      helperPresent s k.cls = true) (h2 : (s.thr 0).pend = .helper k vs)
    (h3 : k.pops ≤ (s.stk 0 (curLevel s 0) false).res.length) : Completes 0 k vs s s :=
  ⟨h1.1, h2, h1.2.1, Laws.ensure_resident h3, h1.2.2⟩
theorem test_ChecksumAndDigestResults : let s := helping .crc32 [4, 0x1000, 0]
    Completes 0 .crc32 [4, 0x1000, 0] s s ∧ ∃ bss s2, RangesRead 0 (stackRanges .crc32 [4, 0x1000, 0]) bss s s2 :=
  ⟨completes_of (by decide) (by decide) (by decide), _, _, rfl⟩
/-- The check values of the two CRCs over the nine bytes 1 to 9 in ASCII, before the final inversion. -/
theorem test_crc_check : (~~~crcFeed 0xEDB88320 0xFFFFFFFF [0x31, 0x32, 0x33, 0x34, 0x35, 0x36, 0x37, 0x38, 0x39] = 0xCBF43926) ∧
    (~~~crcFeed 0x82F63B78 0xFFFFFFFF [0x31, 0x32, 0x33, 0x34, 0x35, 0x36, 0x37, 0x38, 0x39] = 0xE3069283) := by decide +kernel
/-- The helper's memory: one byte of the scratchpad of core 0. -/
def withByte (a : Nat) (b : Byte) (s : State) : State := { s with mem := [(spadBase 0 + a, encByte b)] }

set_option maxRecDepth 4096 in
/-- A key at the start of the kennel, for slot 63, and a ks with bit 7 set. -/
theorem test_KeyAndCipherResults : let s := helping .keyld [127, 0x10700000]
    Completes 0 .keyld [127, 0x10700000] s s ∧ (127 : Cell).toNat < 2 ^ 7 ∧
    RangesRead 0 [{ kind := .helperRead, addr := 0x10700000, len := 32 }] [List.replicate 32 0] s s :=
  ⟨completes_of (by decide) (by decide) (by decide), by decide, rfl⟩
theorem test_KeyAndCipherResults_bad : let s := helping .keyld [128, 0x10700000]
    Completes 0 .keyld [128, 0x10700000] s s ∧ 2 ^ 7 ≤ (128 : Cell).toNat := ⟨completes_of (by decide) (by decide) (by decide), by decide⟩
/-- A wiped operation, whose operands have gone. -/
theorem test_KeyAndCipherResults_wiped : let s := inFlight (.helper .gcmenc []) (bare [0x1000])
    Completes 0 .gcmenc [] s s ∧ HelperKind.gcmenc.cls = 1 := ⟨completes_of (by decide) (by decide) (by decide), rfl⟩
/-- A parameter block of zeros is of the right form; one whose first cell has bit 6 set is not. -/
theorem test_KeyAndCipherResults_form : let s := withByte 0x1005 0x40 (helping .gcmdec [0x1000])
    Completes 0 .gcmdec [0x1000] s s ∧ ∃ bss, RangesRead 0 [{ kind := .helperRead, addr := 0x1000, len := 42 }] bss s s ∧
      (gcmParams bss.flatten).bad = true :=
  ⟨completes_of (by decide) (by decide) (by decide), [(List.replicate 42 0).set 5 0x40], rfl, by decide⟩
theorem test_KeyAndCipherResults_cipher :
    let key : KeySlot := { key := List.replicate 16 0, subkey := 0 }
    let s0 := helping .gcmenc [0x1000]
    let s := { s0 with help := { s0.help with keys := [(0, key)] } }
    Completes 0 .gcmenc [0x1000] s s ∧ RangesRead 0 [{ kind := .helperRead, addr := 0x1000, len := 42 }] [List.replicate 42 0] s s ∧
      (let p := gcmParams (List.replicate 42 0)
       let rs := gcmRanges true p
       p.bad = false ∧ rs.findSome? (rangeExc s 0) = none ∧ rangeHits s 0 rs = 0 ∧ smGet KeySlot.empty s.help.keys p.slot = key ∧
         RangesRead 0 (readOnes rs) [[], []] s s ∧ RangesRead 0 (readOnes (gcmRanges false p)) [[], [], List.replicate 16 0] s s) :=
  ⟨completes_of (by decide) (by decide) (by decide), rfl, by decide, by decide, by decide, by decide, rfl, rfl⟩

/-- A ternary entry that every key fits, at the first index. -/
def anyTern : Tern := { keyhi := 0, keylo := 0, mskhi := 0, msklo := 0, valid := true, data := 7 }
theorem test_LookupAndRecoveryResults : let s0 := helping .lkp [1, 2]
    let s := { s0 with help := { s0.help with tern := [(0, anyTern)] } }
    Completes 0 .lkp [1, 2] s s ∧ s.help.lkpEn = false ∧ exactSearch s 1 2 = (.ok none, s) ∧ (0, anyTern) ∈ s.help.tern ∧
      s.help.tern.Pairwise (fun u v => u.1 < v.1) ∧ (1 : Cell) &&& anyTern.mskhi = anyTern.keyhi &&& anyTern.mskhi :=
  ⟨completes_of (by decide) (by decide) (by decide), by decide, rfl, by decide, by decide, by decide⟩
/-- The bucket of the key (0, 0) holds an entry of that key in way 0. -/
theorem test_LookupAndRecoveryResults_exact : let s0 := helping .lkpx [0, 0]
    let b := 0x10000002 + 72 * ((keyHash 0 0).extractLsb' 0 14).toNat
    let s := { s0 with help := { s0.help with lkpEn := true, lkpBase := 0x10000002 }, mem := [(b + 12, encByte 0x80)] }
    Completes 0 .lkpx [0, 0] s s ∧ (exactSearch s 0 0).1.toOption = some (some 0x800000000000) :=
  ⟨completes_of (by decide) (by decide) (by decide), by decide +kernel⟩
theorem test_LookupAndRecoveryResults_stream : let s0 := helping .seqrec [17, 100, 0, 0]
    let s := { s0 with help := { s0.help with seqPend := [{ thread := 0, stream := 17, new := Stream.boot, verdict := 0 }] } }
    Completes 0 .seqrec [17, 100, 0, 0] s s ∧ s.help.cfgWait = [] ∧ s.help.seqPend.filter (fun q => decide (q.thread = 0)) = s.help.seqPend ∧
      (threadIds.all fun u => decide (u = 0) || (seqStream s u).isNone) = true ∧ (helping .seqrst [17]).help.seqBusy 17 = false :=
  ⟨completes_of (by decide) (by decide) (by decide), by decide, by decide, by decide, by decide⟩

theorem test_CustomerHelper : let s := { ops [1, 2, 3] with help := { State.reset.help with chPresent := true } }
    romRuns 0 3 2 (cellsOf [1, 2, 3]) s = true ∧ (0x38 : BitVec 6).toNat / 16 = 3 ∧ romRuns 0 0 1 [] s = true ∧
      s.help.chPresent = true := by decide
/-- A customer word of the opcode 0x38 in flight under the ID 0x80; no thread has a request with the ID 0x81. -/
theorem test_CustomerHelper_answer : let q : CustReq := { f := 0x38, id := 0x80, a := 1, b := 2, c := 3 }
    let s := inFlight (.cust q (.accepted 0)) (ops [1, 2, 3])
    (s.thr 0).pend = .cust q (.accepted 0) ∧ mayWake s 0 = true ∧ (s.thr 0).robPar = false ∧ pcHits s 0 = 0 ∧ ensureCur 0 false 3 s = some s ∧
      ensureCur 0 false 3 { s with help := { s.help with chtoFlag := true } } = some { s with help := { s.help with chtoFlag := true } } ∧
      q.id.toNat % 128 = (0 : ThreadId).val :=
  ⟨by decide, by decide, by decide, by decide, Laws.ensure_resident (by decide), Laws.ensure_resident (by decide), by decide⟩
/-- The same request still offered at the port. -/
theorem test_CustomerHelper_offered : let q : CustReq := { f := 0x38, id := 0x80, a := 1, b := 2, c := 3 }
    ((inFlight (.cust q .offered) (ops [1, 2, 3])).thr 0).pend = .cust q .offered ∧ CustStage.offered ≠ .waiting ∧
      (ensureCur 0 false 3 (custAccept (inFlight (.cust q .offered) (ops [1, 2, 3])))).isSome = true := by decide
theorem test_CustomerHelper_none (u : ThreadId) (h : CustReq) (id : CustStage) : (State.reset.thr u).pend ≠ .cust h id := by
  have : threadIds.all (fun u => decide ((State.reset.thr u).pend = .none)) = true := by decide
  have := List.all_eq_true.mp this u (List.mem_finRange u)
  rw [of_decide_eq_true this]
  intro e
  cases e
/-! ### Witnesses: drains, engines, answers -/

/-- Reset with one store of thread 0 in the buffer. -/
def buffered (e : SbEntry) : State := State.reset.modCor 0 fun k => { k with sb := [e] }
theorem drains_of (e : SbEntry) (h : e.phase = .waiting ∧ e.par = 0 ∧ e.thread = 0) : Drains 0 e (buffered e) := by
  refine ⟨⟨[], ?_⟩, h.1, h.2.1, rfl⟩
  show [e].filter (fun x => decide (x.thread = 0)) = [e]
  simp [h.2.2]
theorem test_StoreDrains : let e := storeAt 0x1002 [1, 2, 3, 4, 5, 6]
    Drains 0 e (buffered e) ∧ Quiet (buffered e) ∧ spanRegion (some 0) e.ea.toNat e.bytes.length = some .own ∧
      (spadOf 0 .own).any (spadGone (buffered e)) = false ∧ ∀ c, ((buffered e).cor c).borrow.active = false :=
  ⟨drains_of _ (by decide), quiet_of (by decide) (by decide) (by decide), by decide, by decide, by decide⟩
theorem test_StoreDrains_host : let e := storeAt 0x20000004 [1, 2, 3, 4, 5, 6]
    spanRegion (some 0) e.ea.toNat e.bytes.length = some .host ∧ ownerHeld (buffered e) 0 = false ∧
      freeTag (buffered e).fab = some 0 ∧ (buffered e).sprog = [] := by decide
/-- The keep store takes the write, and in SCRAP refuses it; the scratchpad of a fenced core refuses. -/
theorem test_StoreDrains_refused : let e := storeAt 0xF0001000 [1, 2, 3, 4, 5, 6]
    spanRegion (some 0) e.ea.toNat e.bytes.length = some .keep ∧ (buffered e).lc.stateOut ≠ 4 ∧ (buffered e).ks.todo = [] ∧
      (let s := (buffered e).modCor 1 fun k => { k with fenced := true }
       spadOf 0 (.view 1) = some 1 ∧ spadGone s 1 = true) := by decide
theorem test_StoreDrains_fault : let s := State.reset.modThr 0 fun th => { th with sfPend := [(2, 0x1000)] }
    (s.thr 0).sfPend = [(2, 0x1000)] ∧ atBoundary s 0 = true ∧ interruptWaits s 0 = false ∧ (s.thr 0).pend = .none ∧
      (s.thr 0).inj = none := by decide

theorem test_CoreEngines : let s := (ops []).modCor 0 fun k => { k with dfills := [(0x10000020, none)] }
    (0x10000020, none) ∈ (s.cor 0).dfills ∧ lineOk 0x10000020 = true ∧ unitsRun s 0 = true ∧ iline (s.cor 0) 0x10000 = none ∧
      iline (s.cor 0) 0x8FFFF = none := by decide
/-- Thirteen resident operand cells: the engine spills the deepest; three of four: it fills. -/
theorem test_CoreEngines_spill : let s := bare (List.replicate 13 5)
    unitsRun s 0 = true ∧ (s.stk 0 .M false).res.getLast? = some (PCell.of 5) ∧ 12 < residents s 0 false ∧
      (s.stk 0 .M false).sp.toNat + 6 ≤ 0x18000 ∧ (s.cor 0).borrow.active = false := by decide
theorem test_CoreEngines_fill :
    let s := State.reset.setStk 0 .M false { (bare [1, 2, 3]).stk 0 .M false with sp := (State.reset.stk 0 .M false).base + 6 }
    curLevel s 0 = .M ∧ (s.stk 0 .M false).res.length < 4 ∧ ((s.stk 0 .M false).res.length : Int) < (s.stk 0 .M false).depth ∧
      residents s 0 false < 16 ∧ storesOf s 0 = [] ∧ unitsRun s 0 = true := by decide
theorem test_CoreEngines_switch : let s := State.reset.modCor 0 fun k => { k with det := true, switching := true }
    (State.reset.cor 0).det = false ∧ (s.cor 0).switching = true ∧ quiesced s 0 = true ∧ (s.cor 0).borrow.active = false := by decide

/-- A CAS6 of thread 0 whose time has run out. -/
theorem test_OutsideAnswers : let s0 := inFlight (.cas6 0x20000004 (.taken (some 0) true)) (bare [0x20000004, 1, 2])
    let s := { s0 with ports := { s0.ports with semReq := [] } }
    mayWake s0 0 = true ∧ (s0.thr 0).pend = .cas6 0x20000004 (.taken (some 0) true) ∧ semHeld s0 0 = false ∧ ensureCur 0 false 3 s = some s ∧
      curTop s 0 false 3 = [PCell.of 0x20000004, PCell.of 1, PCell.of 2] :=
  ⟨by decide, by decide, by decide, Laws.ensure_resident (by decide), by decide⟩
set_option maxRecDepth 8192 in
/-- A CAS6 that wrote its cell updates the line of its core (R307). -/
theorem test_cas6_line : let l : DLine := { addr := 0x20000020 - 0x20000020 % 48, bytes := List.replicate 48 0 }
    let s := (bare [0x20000024, 0x0102030405FF, 2]).modCor 0 fun k => { k with dlines := [l] }
    (((cas6Line 0 0 s).cor 0).dlines.map fun x => (lineBytes x 0x20000024 6)) = [some [1, 2, 3, 4, 5, 0xFF]] ∧
      ((cas6Line 0 1 s).cor 0).dlines = [l] := by decide
/-- An outstanding request with the tag 255. -/
def asked (we : Bool) (use : FabUse) (s : State) : State :=
  { s with fab := { s.fab with out := [{ tag := 255, we := we, addr := 4, len := 6, wdata := [], owner := 0, peek := false, use := use }] } }
theorem test_OutsideAnswers_store : let e := { storeAt 0x20000004 [1, 2, 3, 4, 5, 6] with phase := .sent 255 }
    let s := asked true (.store 0) (buffered e)
    Quiet s ∧ (findReq s 255).isSome = true ∧ sentEntry s 0 255 = some e ∧ s.fab.timeout ≠ 0 :=
  ⟨quiet_of (by decide) (by decide) (by decide), by decide, by decide, by decide⟩
/-- A load of thread 0 by LD6 with the address on top. -/
def loading : State := asked false (.load 0) (inFlight (.load { width := 6, signed := false, lr := false, form := .base } 0x20000004 0) (bare [0x20000004]))
theorem test_OutsideAnswers_load : Quiet loading ∧ mayWake loading 0 = true ∧ (findReq loading 255).map (·.addr) = some 4 ∧
    ensureCur 0 false 1 { loading with fab := { loading.fab with out := [] } } = some { loading with fab := { loading.fab with out := [] } } ∧
    Quiet (raiseExc 0 { cause := 3, sub := 4, addr := 0x20000004 } { loading with fab := { loading.fab with out := [] } }) :=
  ⟨quiet_of (by decide) (by decide) (by decide), by decide, by decide, Laws.ensure_resident (by decide),
    quiet_of (by decide) (by decide) (by decide)⟩
theorem test_OutsideAnswers_whistle :
    let o : WhiOp := { cmd := 4, next := 6, ask := none, result := none }
    let s := asked true .whistle { State.reset with whi := { State.reset.whi with op := some o } }
    Quiet s ∧ (findReq s 255).isSome = true ∧ s.whi.op = some o ∧ (findReq (asked true .orphan State.reset) 255).isSome = true :=
  ⟨quiet_of (by decide) (by decide) (by decide), by decide, by decide, by decide⟩

/-! ### Witnesses: resets, time, interrupts -/

theorem test_ThreadAndCoreResets : State.reset.boot = .run ∧ State.reset.fetch.items = [] ∧ (127 : ThreadId).core = 15 := by decide
theorem test_OwnerResets : let s := { State.reset with ownq := [.thread 3] }
    let s2 := { State.reset with ownWait := some (.core 15) }
    s.ownWait = none ∧ s.ownq = [.thread 3] ∧ Quiet s2 ∧ s2.boot = .run ∧ inScope 127 (.core 15) = true ∧ ownerHeld s2 127 = true :=
  ⟨by decide, by decide, quiet_of (by decide) (by decide) (by decide), by decide, by decide, by decide⟩
theorem test_OwnerResets_start : let s := { State.reset with ownWait := some .tile, boot := .ackWait 2 }
    s.ownWait = some .tile ∧ s.boot = .ackWait 2 ∧ (2 : BitVec 3) ≠ 1 ∧ (s.dbg.rsthalt && s.dbg.attached) = false := by decide
theorem test_TileResets : State.reset.pwr.rest ≠ .off ∧ State.reset.ks.todo = [] ∧ State.reset.boot = .run ∧
    ({ State.reset with pwr := { State.reset.pwr with rest := .off } } : State).pwr.rest = .off ∧
    ({ State.reset with boot := .held 2 } : State).boot = .held 2 := by decide

/-- A leash that counts, at the end of a core cycle; ADJ at its most negative with the timebase just above the step. -/
theorem test_TimeKeeping :
    let s0 := leashed { LeashReg.clear with on := true, count := 1 }
    let s := { s0 with tk := { s0.tk with adj := 0x800000000000, slew := 3, tb := 8 * 2 ^ 24, coreAcc := 3 } }
    s.boot = .run ∧ s.pwr.rest = .run ∧ s.frozen = false ∧ clkDiv s.profile.clk ≤ s.tk.coreAcc + 2 ∧ (s.thr 0).leash.on = true ∧
      (s.thr 0).leash.count ≠ 0 ∧
      (0 : Int) ≤ (s.tk.tb : Int) + s.tk.incr.toNat + s.tk.adj.toInt.sign * min s.tk.adj.toInt.natAbs (2 ^ s.tk.slew.toNat) * 2 ^ 24 := by
  decide
theorem test_TimeKeeping_rest : let s := fun (r : TileRest) => { State.reset with pwr := { State.reset.pwr with rest := r } }
    (s .sleep).boot = .run ∧ (s .sleep).pwr.rest = .sleep ∧ (s .sleep).dbg.attached = false ∧ (s .off).pwr.rest = .off := by decide
/-- An interval of 0 and one of −2⁻¹⁶ ns at the timebase 0. -/
theorem test_TimeKeeping_step : (0 : Int) ≤ State.reset.now + timeValue 0 0 ∧ State.reset.now + timeValue 0 0 < 2 ^ 47 * 65536000000000 ∧
    State.reset.now + timeValue 0xFFFFFFFFFFFF 65535999999999 = -1 := by decide
/-- The greatest normal value of the bus that does not overflow, and one that is not normal. -/
theorem test_TimeKeeping_load :
    let s := fun (l : Cell) => { State.reset with tk := { State.reset.tk with load := some 0, mode := .follow, bushi := 0x7FFFFFFFFFFF, buslo := l } }
    (s 0).tk.load = some 0 ∧ (s 0).tk.buslo.toNat < 65536000000000 ∧
      (s 0).tk.bushi.toNat * 65536000000000 + (s 0).tk.buslo.toNat + 4 * (s 0).tk.incr.toNat / 2 ^ 24 < 2 ^ 47 * 65536000000000 ∧
      65536000000000 ≤ (s 0x3B9ACA000000).tk.buslo.toNat ∧ (s 0).tk.mode ≠ .free ∧ State.reset.tk.mode = .free ∧ (s 0).pwr.rest = .run := by decide

/-- Source 64 pends at priority 15 for thread 0, at M level. -/
def pending64 : State := State.reset.setSrc 64 { Src.boot with pend := true, lvl := .M, prio := 15, tgt := 1 }
theorem test_InterruptSources : srcExists 1 = true ∧ srcExists 447 = true ∧ srcExists 0 = false ∧ srcExists 448 = false ∧
    State.reset.ticStopped = false ∧ ({ State.reset with pwr := { State.reset.pwr with rest := .sleep } } : State).ticStopped = true ∧
    claimSource pending64 0 = some 64 ∧ claimSource State.reset 0 = none ∧ (State.reset.thr 0).pend = .none := by decide
theorem test_InterruptEntry : mayRecognise pending64 0 = true ∧ (pending64.thr 0).inj = none ∧ (pending64.thr 0).pend = .none ∧
    bestSource pending64 (recognisable pending64 0 (pending64.thr 0).arch.ipl (pending64.thr 0).arch.level) = some 64 ∧
    (let a := entryArch (pending64.thr 0).arch .M
     (a.stk .M).rs.fits ((a.stk .M).rs.depth + 2) = true) ∧ ((State.reset.cor 0).vbase .M).toNat * 512 = 0xFFE00 ∧
    ∃ w, fetchWord (holdFor 64 0 (beginWord 0 pending64)) 0 0xFFE00 = (.word w, holdFor 64 0 (beginWord 0 pending64)) :=
  ⟨by decide, by decide, by decide, by decide, by decide, by decide, _, rfl⟩
theorem test_InterruptEntry_none :
    bestSource State.reset (recognisable State.reset 0 (State.reset.thr 0).arch.ipl (State.reset.thr 0).arch.level) = none := by decide
theorem test_MachineCheckEntry : let s := { State.reset with tic := { State.reset.tic with mcPend := true, mcReason := 2 } }
    s.tic.mcPend = true ∧ mcTarget s = some 0 ∧ (s.thr 0).arch.mcact = false ∧ s.frozen = false ∧ s.boot = .run ∧ coreUp s 0 = true ∧
      (s.thr 0).inj = none ∧ ∃ w, fetchWord ((beginWord 0 s).modThr 0 endLeash) 0 0xFFFF8 = (.word w, (beginWord 0 s).modThr 0 endLeash) :=
  ⟨by decide, by decide, by decide, by decide, by decide, by decide, by decide, _, rfl⟩

/-! ### Witnesses: watchdogs, visits, run control -/

/-- The watchdog of core 15 at a stage, its count at 0. -/
def dogAt (st : WdgStage) (sc : Bool) : State := State.reset.modCor 15 fun k =>
  { k with wdg := { k.wdg with stage := st, count := 0, scope := sc, ticked := true } }
theorem test_WatchdogsAndStuckVisits : ((dogAt .bark false).cor 15).wdg.stage = .bark ∧ ((dogAt .bite false).cor 15).wdg.count = 0 ∧
    ((dogAt .bite true).cor 15).wdg.scope = true ∧ ((dogAt .bite true).cor 15).wdg.ticked = true ∧ (dogAt .bite false).fetch.items = [] ∧ curLevel State.reset 0 = .M ∧
    curLevel teeState 0 ≠ .M ∧ curLevel teeState 0 ≠ .S ∧ (State.reset.cor 15).wdg.count ≠ 0 := by decide
/-- A visit at exactly the limit of 1,024 cycles. -/
theorem test_StuckVisit : let it := { anItem (.current 0) with visitCyc := 1024 }
    let s0 := withItem it State.reset
    let s := { s0 with heel := { s0.heel with stuck := 1 } }
    currentItem s 0 = some it ∧ fetchRuns s = true ∧ s.heel.stuck.toNat * 1024 ≤ it.visitCyc ∧ it.tag = none ∧ it.bookW = none ∧
      it.token = none ∧ (threadIds.all fun v => decide (v = 0) || (s.thr v).cur.isNone) = true := by decide

/-- The debugger attached, and the tile halted, with thread 0 selected. -/
def attachedState : State := { State.reset with dbg := { State.reset.dbg with attached := true } }
def haltedState : State := { State.reset with dbg := { State.reset.dbg with attached := true, halted := true, selReady := true, cause := 4 } }
theorem test_HaltAndResume : attachedState.frozen = false ∧ attachedState.dbg.stepping = false ∧ State.reset.dbg.attached = false ∧
    haltedState.dbg.halted = true ∧ haltedState.held = [] ∧ (threadIds.all fun u => decide (parkCode (haltedState.thr u).pend = 0)) = true ∧
    ({ State.reset with dbg := { State.reset.dbg with halting := true } } : State).dbg.resumeWait = false := by decide
theorem test_SelectStepInject : haltedState.dbg.sel = BitVec.ofNat 7 (0 : ThreadId).val ∧ haltedState.dbg.selWait = none ∧
    haltedState.dbg.stepping = false ∧ 0 ≤ curDepth haltedState 0 false ∧ (haltedState.thr 0).stopped = false ∧
    (haltedState.cor (0 : ThreadId).core).fenced = false ∧ (haltedState.thr 0).en = true ∧ (haltedState.thr 0).pend = .none ∧
    (haltedState.thr 0).inj = none ∧ injectRefused 0x0BFF = true := by decide
/-- The thread at the first word of the local program RAM, which holds LIT 7. -/
theorem test_SelectStepInject_step : let s0 := (haltedState.modArch 0 fun a => { a with pc := 0 }).modCor 0 fun k => { k with lprog := [(0, encLocal 7)] }
    let s' := beginWord 0 { s0 with dbg := { s0.dbg with stepping := true } }
    (fetchWord s0 0 0).1 = .word 7 ∧ fetchWord s' 0 0 = (.word 7, s') ∧ pcHits s' 0 = 0 ∧
      (s'.stk 0 (curLevel s' 0) false).fits (curDepth s' 0 false + 1) = true := ⟨rfl, rfl, by decide, by decide⟩
/-! ### Witnesses: the Whistle port -/

/-- A frame with its CRC right. -/
def frameOf (cmd arg : BitVec 4) (data : Cell) : Frame :=
  let fr : Frame := { arg := arg, data := data, crc := 0 }
  { fr with crc := frameCrc cmd fr }
/-- The state of the life cycle, and the link address. -/
def whiState (st : BitVec 3) (link : BitVec 36) : State :=
  { State.reset with lc := { State.reset.lc with stateOut := st }, whi := { State.reset.whi with link := link } }
/-- A frame of a command is accepted. -/
def accepts (cmd : BitVec 4) (fr : Frame) (s : State) : Bool :=
  whiListens s && decide (fr.crc = frameCrc cmd fr) && formatOk cmd fr && decide (s.whi.op = none) &&
    (whistleOpen s || decide (cmd ∈ [0#4, 5#4, 8#4]))
theorem accepted_of {cmd : BitVec 4} {fr : Frame} {s : State} (h : accepts cmd fr s = true) : Accepted cmd fr s := by
  simp only [accepts, Bool.and_eq_true, Bool.or_eq_true, decide_eq_true_eq] at h
  obtain ⟨⟨⟨⟨h1, h2⟩, h3⟩, h4⟩, h5⟩ := h
  exact ⟨h1, h2, h3, h4, h5⟩
theorem test_WhistleCommands : accepts 0 (frameOf 0 0 0) State.reset = true ∧ accepts 1 (frameOf 1 0 0xFFFFFFFFF) State.reset = true ∧
    accepts 5 (frameOf 5 0 0) State.reset = true ∧ accepts 6 (frameOf 6 15 1) State.reset = true ∧ accepts 7 (frameOf 7 15 0) State.reset = true ∧
    (15 : BitVec 4) = BitVec.ofNat 4 (15 : CoreId).val ∧ (State.reset.cor 15).rxfull = false ∧ (State.reset.cor 15).txfull = false := by decide +kernel
theorem test_WhistleCommands_refused : frameCrc 1 (frameOf 1 0 5) ≠ 0 ∧ formatOk 1 (frameOf 1 0 0x1000000000) = false ∧ whiListens State.reset = true ∧
    (whiState 4 0).lc.stateOut = 4 ∧ (whiState 2 0).lc.unlocked = false ∧ formatOk 1 (frameOf 1 0 0xFFFFFFFFF) = true := by decide +kernel
/-- A byte of a scratchpad, of a register, of host memory; a hole and an odd address. -/
theorem test_WhistleAccesses : accepts 2 (frameOf 2 1 0x1000000) State.reset = true ∧ accepts 3 (frameOf 3 6 0) (whiState 0 0x40000002) = true ∧
    accepts 4 (frameOf 4 6 7) (whiState 0 0x40000008) = true ∧ freeTag State.reset.fab = some 0 ∧
    regAt none 0x40000008 = some (.tile 1) ∧ (∀ c, ((whiState 0 0).cor c).borrow.active = false) ∧
    (regStore .whistle .M (.tile 1) 7 (whiState 0 0x40000008)).whi.op = none := by decide +kernel
theorem test_WhistleAccesses_checks : whiCheck State.reset false 0x1000000 1 = .ok (.view 0) ∧ whiCheck State.reset false 0x40000002 6 = .ok .reg ∧
    whiCheck State.reset false 0x20000000 6 = .error 5 ∧ whiCheck State.reset false 0x20000004 6 = .ok .host ∧
    whiCheck State.reset true 0xF0000C00 6 = .ok .keep ∧ whiCheck State.reset true 0xF0000BFA 6 = .error 6 ∧
    whiCheck State.reset false 0x500000000 1 = .error 4 := ⟨rfl, rfl, rfl, rfl, rfl, rfl, rfl⟩
/-- An operation with its result known, and one whose request is still to be sent. -/
def whiWith (op : WhiOp) : State := { State.reset with whi := { State.reset.whi with op := some op } }
theorem test_WhistleOperationEnd : (whiWith { cmd := 4, next := 6, ask := none, result := some { status := 0, data := 0, cmd := 4 } }).whi.op.isSome = true ∧
    freeTag (whiWith { cmd := 2, next := 6, ask := some { addr := 0x20000004, len := 6, wdata := none }, result := none }).fab = some 0 := by decide
theorem test_WhistleLows : 19530 ≤ 19530 ∧ State.reset.lc.stateOut ≠ 2 ∧ State.reset.pwr.rest ≠ .off ∧ (whiState 2 0).lc.stateOut = 2 ∧
    (whiState 2 0).lc.unlocked = false := by decide
theorem test_Unlock : accepts 8 (frameOf 8 0 0) (whiState 2 0) = true ∧ accepts 8 (frameOf 8 4 0) (whiState 2 0) = true ∧
    accepts 8 (frameOf 8 5 0) (whiState 4 0) = true ∧ accepts 8 (frameOf 8 2 0xFFFFFFFFFFFF) (whiState 2 0) = true ∧
    (whiState 2 0).lc.blocked = 0 ∧ (whiState 2 0).lc.challenge = none ∧
    (let s := { whiState 2 0 with lc := { (whiState 2 0).lc with challenge := some (1, 2), blocked := 1 } }
     s.lc.blocked ≠ 0 ∧ s.lc.challenge = some (1, 2)) ∧
    (whiWith { cmd := 8, next := 0, ask := none, result := some { status := 6, data := 0, cmd := 8 } }).whi.op.isSome = true := by decide +kernel
theorem test_TerminalAndLogs : let x : EccEntry := { prog := false, lane := 0, syn := 0, wr := false, addr := 0xFFFFFFFFF }
    let y : LossEntry := { cause := 0, core := 15, flow := 0, seq := 0 }
    let s := { State.reset with ecc := { State.reset.ecc with celog := [x], uelog := [x, x] }, heel := { State.reset.heel with losslog := [y] } }
    s.ecc.celog = x :: [] ∧ s.ecc.uelog = x :: [x] ∧ s.heel.losslog = y :: [] ∧ State.reset.ecc.celog = [] ∧ State.reset.ecc.uelog = [] ∧
      State.reset.heel.losslog = [] := by decide

/-! ### Witnesses: items -/

/-- Reset with node 3 enabled, flow 1 as given, and items. -/
def fetching (f : Flow) (xs : List Item) : State :=
  { State.reset with
    fetch := { State.reset.fetch with admitOn := false, items := xs, nodes := [(3, { Node.boot with en := true, cores := 1, pc := 0x123 })] }
    heel := { State.reset.heel with flows := if f = Flow.boot then [] else [(1, f)] } }
theorem offers_of {s : State}
    (h : (fetchRuns s && decide (s.pwr.rest = .run ∧ s.pwr.req = none ∧ s.fetch.beta = s.fetch.cycle / 16)) = true) : Offers s := by
  simp only [Bool.and_eq_true, decide_eq_true_eq] at h
  exact ⟨h.1, h.2.1, h.2.2.1, h.2.2.2⟩
/-- An ordered flow whose next sequence is 5. -/
def flow5 : Flow := { Flow.boot with fresh := false, nexta := 5, nextr := 5 }
/-- Cell 0 of a descriptor of flow 1, sequence 5, for node 3, and of a token. -/
def cell0 : Cell := 0x000100000503
def tokenCell : Cell := 0x000100000500
/-- The last handle, and one past it, for a frame of no bytes; an accepted descriptor of the flow's next sequence; a FRESH flow. -/
theorem test_DescriptorsAndBeats : Offers (fetching flow5 []) ∧ ((fetching flow5 []).nodeOf 3).en = true ∧ ((fetching flow5 []).nodeOf 3).ord ≠ .free ∧
    cell0.extractLsb' 0 8 = 3 ∧ cell0.extractLsb' 8 24 = (5 : BitVec 24) ∧ (fetching flow5 []).flow 1 = flow5 ∧
    (fetching flow5 []).fetch.admitOn = false ∧ qcount (fetching flow5 []) < 3968 ∧ ((fetching Flow.boot []).flow 1).fresh = true ∧
    ((fetching Flow.boot []).flow 1).state = .idle ∧ ((fetching flow5 []).nodeOf 4).en = false ∧
    ((174762 : Cell).extractLsb' 0 21).toNat + 0 ≤ 174762 ∧ uncoreRuns State.reset = true :=
  ⟨offers_of (by decide), by decide, by decide, by decide, by decide, by decide, by decide, by decide, by decide, by decide, by decide,
    by decide, by decide⟩
theorem test_DescriptorsAndBeats_busy : ((fetching { flow5 with state := .leaving } []).flow 1).state = .leaving ∧
    qcount (fetching flow5 ((List.range 3968).map fun _ => anItem .queued)) = 3968 := by
  have h : ∀ f xs, qcount (fetching f xs) = (xs.filter Item.inQueue).length := fun _ _ => rfl
  refine ⟨by decide, ?_⟩
  rw [h, List.filter_map, List.length_map, show Item.inQueue ∘ (fun _ : Nat => anItem .queued) = fun _ => true from funext fun _ => (by decide +kernel : (anItem .queued).inQueue = true),
    List.filter_true, List.length_range]
theorem test_CancelsAndTokens : let x := anItem (.current 0)
    let s := fetching { flow5 with nexta := 6 } [x]
    Offers s ∧ tokenCell.extractLsb' 0 8 = (0 : BitVec 8) ∧ (s.flow 1).free = false ∧ (5 : BitVec 24) ≠ (s.flow 1).nexta ∧ (s.flow 1).state ≠ .leaving ∧
      cancelTarget s 1 5 = some x ∧ isCancelled x = false :=
  ⟨offers_of (by decide), by decide, by decide, by decide, by decide, by decide, by decide⟩
theorem test_CancelsAndTokens_places : let r := { anItem .ready with action := 0 }
    let q := { anItem .queued with action := 0 }
    cancelTarget (fetching { flow5 with nexta := 6 } [r]) 1 5 = some r ∧ isCancelled r = false ∧
    cancelTarget (fetching { flow5 with nexta := 6 } [q]) 1 5 = some q ∧ isCancelled q = false ∧ q.tag = none ∧
    q.bookW = none ∧ ((fetching Flow.boot []).flow 1).fresh = true ∧ ((fetching flow5 []).flow 1).nexta = 5 := by decide
theorem test_CancelsAndTokens_fence : ((fetching { flow5 with state := .active } []).flow 1).state = .active ∧
    ((fetching Flow.boot []).flow 1).state = .idle ∧ ((fetching { flow5 with state := .arriving } []).flow 1).nextr = 5 ∧
    (1#2 ++ 0#46 : Cell) = 0x400000000000 ∧ (1 : Cell).extractLsb' 0 46 ≠ 0 := by decide

/-- Thread 0 parked in GETWORK, an item queued that it may take. -/
def dispatching (pl : Place) : State :=
  let s := fetching flow5 [anItem pl]
  (inFlight (.getwork { hi := 0x800000000000, lo := 0 }) (s.setStk 0 .M false ((ops [0x800000000000, 0]).stk 0 .M false)))
theorem test_ItemDispatch : let s := dispatching .queued
    fetchRuns s = true ∧ (s.cor (0 : ThreadId).core).rest = .run ∧ anItem .queued ∈ s.fetch.items ∧ mayWake s 0 = true ∧ (s.thr 0).inj = none ∧
      s.dbg.stepping = false ∧ 2 ≤ (s.stk 0 (curLevel s 0) false).res.length ∧ rsRoom s 0 1 = true ∧ residents s 0 true < 24 ∧
      residents s 0 false ≤ 16 ∧ fillThread s (anItem .queued) = some 0 ∧
      bestItem s (s.fetch.items.filter fun x => decide (x.place = .queued ∧ x.eligCyc ≤ s.fetch.cycle) && (fillThread s x).isSome) = some (anItem .queued) := by decide +kernel
theorem test_ItemDispatch_slot : fillThread (fetching flow5 [anItem .queued]) (anItem .queued) = some 0 ∧
    ((fetching flow5 [anItem .queued]).thr 0).pend = .none := by decide +kernel
theorem test_ItemDispatch_move : let s := dispatching (.slot 7)
    (s.thr 0).slot = none ∧ (7 : ThreadId) ≠ 0 ∧ (7 : ThreadId).core = (0 : ThreadId).core ∧ parkCode (s.thr 7).pend = 0 ∧
      dispatchable s 0 (anItem (.slot 7)) = true := by decide
theorem test_LedgerAdvance : let s := { State.reset with fetch := { State.reset.fetch with cycle := 16 } }
    fetchRuns s = true ∧ s.fetch.beta < s.fetch.cycle / 16 ∧ State.reset.fetch.cycle / 16 ≤ State.reset.fetch.beta ∧ 2 ≤ [1, 2].length := by decide
/-- A frame of no bytes ready with FORWARD, and a hole, at the flow's next release. -/
theorem test_ReleaseRecords : nextRelease (fetching flow5 [{ anItem .ready with action := 0 }]) = some { anItem .ready with action := 0 } ∧
    (anItem .ready).kept = [] ∧ ((anItem .ready).desc1.extractLsb' 21 14).toNat = 0 ∧
    nextRelease (fetching flow5 [anItem .hole]) = some (anItem .hole) ∧ nextRelease State.reset = none ∧
    fetchRuns (fetching flow5 [anItem .ready]) = true := by decide
theorem test_ReleaseRecords_drained : let f := (fetching { flow5 with state := .leaving, leaveAt := 5 } []).flow 1
    f.state = .leaving ∧ f.infl = 0 ∧ f.nextr = f.leaveAt ∧ (State.reset.flow State.reset.heel.flowsel).state = .idle := by decide

/-! ### Witnesses: storage, power, registers -/

theorem test_KennelAndKeepStore : let j : KeepJob := { owner := .orphan, addr := 0xF001FFFA, bytes := [some 0, none, none, none, none, some 0] }
    let s := { State.reset with ks := { State.reset.ks with todo := [j] }, knl := { State.reset.knl with wiping := true } }
    s.ks.todo = [j] ∧ uncoreRuns s = true ∧ Quiet s ∧ s.knl.wiping = true ∧ s.lc.busy = false ∧ s.ticStopped = false ∧
      isKennel 0x10700000 = true ∧ isKennel 0x1075FFFF = true ∧ isKennel 0x10760000 = false :=
  ⟨by decide, by decide, quiet_of (by decide) (by decide) (by decide), by decide, by decide, by decide, by decide, by decide, by decide⟩
theorem test_ScrubAndClear : let s := { State.reset with ecc := { State.reset.ecc with enSp := true, enKn := true, enSh := true, left := List.replicate 18 0 } }
    walkerMay s 0 = true ∧ walkerMay s 1 = true ∧ walkerMay s 17 = true ∧ (∀ c, (s.cor c).borrow.active = false) ∧ s.ecc.walk.length = 18 ∧
      s.ecc.clearBusy = false ∧ clearable s 0 = true ∧ clearable s 83 = true ∧ clearable s 16 = false ∧ clearable s 84 = false ∧
      bankOf 0x10000000 = 10 ∧ bankOf (spadBase 15) = 80 := by decide
/-- The greatest base and one past it; a borrow at the stages of its life. -/
theorem test_BorrowWindow : let at' := fun (a b c : Bool) => State.reset.modCor 0 fun k =>
      { k with borrow := { k.borrow with active := a, copying := b, back := c, base := 95 } }
    (State.reset.cor 0).borrow.active = false ∧ (95 : BitVec 7).toNat < 96 ∧ 96 ≤ (96 : BitVec 7).toNat ∧ (State.reset.cor 0).det = false ∧
      (State.reset.cor 0).act = false ∧ ((at' true true false).cor 0).borrow.back = false ∧ ((at' true false false).cor 0).borrow.copying = false ∧
      ((at' true true true).cor 0).borrow.buf = [] := by decide

/-- Every thread stopped and every limit open: the core may nap; napping, doze. -/
def still : State :=
  let s := { (State.reset.mapThreads fun th => { th with stopped := true }) with
    pwr := { State.reset.pwr with napen := true, dozeen := true, sleepen := true, offen := true, napdly := 0, dozedly := 0, tol := List.replicate 4 0xFFFFFFFF } }
  s
/-- The same with every core at a level, and the tile at one. -/
def resting (c : CoreRest) (r : TileRest) : State :=
  { still with cores := allCores fun x => { still.cor x with rest := c, det := false, act := false }, pwr := { still.pwr with rest := r } }
theorem test_CoreRestAndWake : mayNap still 0 = true ∧ mayNap State.reset 0 = false ∧ mayDoze (resting .nap .nap) 0 = true ∧
    mayDoze State.reset 0 = false ∧ coreCalled (resting .nap .nap) 0 = false ∧ mayAskNap (resting .nap .run) = true ∧
    mayAskNap (resting .nap .nap) = false ∧ ((resting .nap .run).cor 0).rest ≠ .run ∧
    (let s := pending64.modCor 0 fun k => { k with rest := .nap }
     coreCalled s 0 = true ∧ (s.cor 0).rest ≠ .run ∧ s.frozen = false) := by decide +kernel
theorem test_CoreRestAndWake_ends : let s := (inFlight (.waitt { hi := 0, lo := 0 }) State.reset).modCor 0 fun k => { k with rest := .nap, waking := true }
    s.frozen = false ∧ (s.cor 0).rest = .nap ∧ exitDue s (coreTau s 0) 40 0 = true ∧ (s.cor 0).waking = true ∧ s.held = [] ∧
    (let z := { inFlight (.waitt { hi := 0, lo := 0 }) (resting .doze .sleep) with pwr := { (resting .doze .sleep).pwr with waking := true } }
     exitDue z (tileTau z) 30000 32000000 = true ∧ z.pwr.rest = .sleep ∧ z.pwr.waking = true ∧ z.held = [] ∧ z.dbg.attached = false) := by decide +kernel
theorem test_CoreRestAndWake_unparked : let s := State.reset.modCor 0 fun k => { k with waking := true }
    (s.cor 0).waking = true ∧ s.pwr.rest = .run ∧ (threadIds.all fun t => decide (parkCode (s.thr t).pend = 0)) = true := by decide +kernel
theorem test_TileRestLevels : let asks := fun (r : TileRest) => { State.reset with pwr := { State.reset.pwr with req := some r } }
    maySleep (resting .doze .run) = true ∧ maySleep State.reset = false ∧ mayOff (resting .doze .sleep) = true ∧
      (resting .doze .sleep).dbg.attached = false ∧ (asks .nap).pwr.req = some .nap ∧ (asks .sleep).dbg.attached = false ∧
      (asks .off).ks.todo = [] ∧ State.reset.pwr.req = none ∧ fetchRuns (asks .nap) = true := by decide +kernel
theorem test_HelperPowerAndProfiles : let s := { State.reset with help := { State.reset.help with off := 0b1000 } }
    s.help.off.getLsbD (3 : Fin 4).val = true ∧ s.help.off.getLsbD (0 : Fin 4).val = false ∧
      (threadIds.all fun t => decide ((s.thr t).pend = .none)) = true ∧
      ((inFlight (.helper .hash [1, 2]) s).thr 0).pend = .helper .hash [1, 2] ∧ HelperKind.hash.cls = (2 : Fin 4).val := by decide
set_option maxRecDepth 20000 in
/-- The shipped profile DRIVE passes its checks; with every key of its cells gone it does not. -/
theorem test_Profiles : (loadProfile State.reset 0).isSome = true ∧ (∀ d, (State.reset.cor d).rest = .run) ∧ State.reset.pwr.loading = false ∧
    loadDisturbs State.reset driveProfile = false := by decide +kernel
theorem test_Profiles_bad : loadProfile { State.reset with mem := [] } 3 = none := by decide +kernel
theorem test_Profiles_complete :
    let s := { State.reset with pwr := { State.reset.pwr with loading := true, load := some (1, fallbackProfile) } }
    s.pwr.load = some (1, fallbackProfile) ∧ s.frozen = false ∧ s.pwr.rest = .run ∧ (threadIds.all fun t => decide ((s.thr t).pend = .none)) = true ∧
      (∀ d, (s.cor d).rest = .run ∧ (s.cor d).waking = false ∧ (s.cor d).sb = []) ∧ State.reset.pwr.load = none := by decide

/-- Each ground on which a transition is turned away, and a write that is not. -/
theorem test_CommandRegisters : (0x1C5E00000000 : Cell).extractLsb' 0 3 ≤ State.reset.lc.stateOut ∧ (1 : Cell).extractLsb' 32 16 ≠ (0x1C5E : BitVec 16) ∧
    (4 : BitVec 3) < (0x1C5E00000005 : Cell).extractLsb' 0 3 ∧ (0x1C5E00000001 : Cell).extractLsb' 32 16 = (0x1C5E : BitVec 16) ∧
    ¬((0x1C5E00000001 : Cell).extractLsb' 0 3 ≤ State.reset.lc.stateOut) ∧ State.reset.lc.busy = false ∧ State.reset.lc.unlocked = false := by decide
theorem test_CommandRegisters_end : let s := { State.reset with lc := { State.reset.lc with busy := true, phase := .marking } }
    s.lc.busy = true ∧ s.lc.phase = .marking ∧ keepHas s .lifeCycle = false := by decide

/-- The writer reaches the register. -/
def reaches (ag : Agent) (r : RegRef) (v : Cell) (s : State) : Bool :=
  decide (s.boot = .run) && decide ((BitVec.ofNat 36 r.addr).toNat = r.addr) && r.mapped && writerMay ag r v s
theorem reaches_of {ag : Agent} {r : RegRef} {v : Cell} {s : State} (h : reaches ag r v s = true) : Reaches ag (BitVec.ofNat 36 r.addr) r v s := by
  simp only [reaches, Bool.and_eq_true, decide_eq_true_eq] at h
  obtain ⟨⟨⟨h1, h2⟩, h3⟩, h4⟩ := h
  exact ⟨h1, h2, h3, h4⟩
theorem test_RegisterWrites : (∀ k ∈ [1, 7, 10, 39, 64, 258, 320, 449, 2048, 2558], reaches .whistle (.tile k) 5 State.reset = true) ∧
    (∀ k ∈ [7, 10], reaches (.thread 0) (.core 15 k) 5 State.reset = true) ∧
    (∀ k ∈ [3, 7, 33], reaches (.thread 0) (.thread 127 k) 5 State.reset = true) := by decide
theorem test_RegisterWrites_none : (0x40000003 : BitVec 36).toNat % 6 ≠ 0 ∧ (0x3FFFFFFF : BitVec 36).toNat < 0x40000000 ∧
    0x40320000 ≤ (0x40320000 : BitVec 36).toNat ∧ readOnly (.tile 0) = true ∧ (RegRef.tile 0).mapped = true ∧ curLevel teeState 0 ≠ .M := by decide

/-! ### Witnesses: the block -/

theorem test_QueueRunsFront : let s := { State.reset with pending := [.timeStep, .ppsMiss] }
    s.pending = .timeStep :: [.ppsMiss] ∧ State.reset.pending = [] ∧ step s = exec .timeStep { s with pending := [.ppsMiss] } := ⟨rfl, rfl, rfl⟩
theorem test_StepKeepsMemoryCanonical : memoryWf State.reset = true ∧ step State.reset = .next State.reset := ⟨by decide +kernel, rfl⟩
theorem test_EncodingRoundTrip : (Instr.add 5 1).wf = true ∧ wordThread (.add 5 1) = some 5 ∧ encodeWord (.add 5 1) = some 0x1820 ∧
    (Instr.reservedEncoding 5 0 0xF00).wf = true ∧ encodeWord (.reservedEncoding 5 0 0xF00) = some 0x0F00 := by decide
/-! ### Witnesses: whole runs, misses and waits -/

/-- FILL of 7 bytes in two steps. -/
theorem test_BlockRuns : let s := beginWord 0 (bare [7, 0x1000, 0x2000])
    storesOf s 0 = [] ∧ (∃ u, FillSteps 0 5 7 0x1000 s u) ∧ (∃ u, MoveSteps 0 0 1 2 s u) ∧ ∃ sum u, CsumSteps 0 2 0x1000 1 s sum u :=
  ⟨by decide, ⟨_, .step 7 0x1000 .own _ _ (by decide) ⟨rfl, by decide, by decide +kernel⟩
    (.step 1 0x1006 .own _ _ (by decide) ⟨by decide +kernel, by decide, by decide +kernel⟩ (.done 0x1007 _))⟩, ⟨_, .done ..⟩,
    ⟨_, _, .step 2 0x1000 1 [0, 0] _ _ _ _ (by decide) ⟨⟨.own, _, rfl, by decide, rfl, by decide, by decide⟩, by decide⟩ (.done ..)⟩⟩
set_option maxRecDepth 8192 in
/-- A table at the first cell of the shared SRAM that is aligned to cells: the bucket of the key (0, 0). -/
theorem test_ExactTable : let s := { State.reset with help := { State.reset.help with lkpEn := true, lkpBase := 0x10000002 }, mem := [] }
    s.help.lkpEn = true ∧ s.help.lkpBase.toNat % 6 = 0 ∧ 0x10000000 ≤ s.help.lkpBase.toNat ∧ s.help.lkpBase.toNat + 1179648 ≤ 0x10500000 ∧
      (∃ s1, busRead s .normal (span (bucketAt 0x10000002 0 0) 72) = (.ok (List.replicate 72 0), s1)) ∧
      ¬wayHolds (List.replicate 72 0) 0 0 3 :=
  ⟨by decide, by decide, by decide, by decide, ⟨_, by rfl⟩, by unfold wayHolds; decide⟩
/-- A load of host memory that misses the D-cache, and one of the shared SRAM that does. -/
theorem test_LoadElsewhere_miss :
    let s := beginWord 0 (bare [0x20000016])
    let z := beginWord 0 (bare [0x10000026])
    checkAccess s 0 (accLevel s 0) .load 0x20000016 6 0 = .ok .host ∧ forwardFor s 0 false .host 0x20000016 6 = .read ∧
      usesDcache s 0 .host 0x20000016 6 = true ∧ findDline (s.cor 0) 0x20000010 = none ∧ dataHits s 0 false 0x20000016 6 = 0 ∧
      checkAccess z 0 (accLevel z 0) .load 0x10000026 6 0 = .ok .shared ∧ forwardFor z 0 false .shared 0x10000026 6 = .read ∧
      usesDcache z 0 .shared 0x10000026 6 = true ∧ findDline (z.cor 0) 0x10000020 = none ∧
      peekSpan z .normal 0x10000026 6 = .ok [0, 0, 0, 0, 0, 0] := ⟨rfl, by decide, by decide, by decide, by decide, rfl, by decide, by decide, by decide, by decide⟩

/-- An atomic behind a store of its thread; a full store buffer. -/
theorem test_Atomics_wait : let s := (bare [0x1002, 5]).modCor 0 fun k => { k with sb := [storeAt 0x1008 [1]] }
    let full := (bare [0x1002, 5]).modCor 0 fun k => { k with sb := List.replicate 8 (storeAt 0x1008 [1]) }
    romRuns 0 2 1 (cellsOf [0x1002, 5]) s = true ∧ storesOf (beginWord 0 s) 0 ≠ [] ∧ romRuns 0 2 0 (cellsOf [0x1002, 5]) full = true ∧
      8 ≤ ((beginWord 0 full).cor 0).sb.length := by decide
/-- A frame of M level whose return leaves a source of M level to chain. -/
def chained : State :=
  let s := pending64.modArch 0 fun a => { a with ipl := 15, handler := true }
  retsOn s [PCell.of 0xE00000000000, PCell.of 0xC00000100200]
theorem test_ReturnFromEntry_chain : romRuns 0 0 0 [] chained = true ∧ recognisable chained 0 0 .T 64 = true ∧ firstFor chained 0 64 = true ∧ (chained.src 64).lvl = .M ∧
    (0xE00000000000 : Cell).extractLsb' 44 2 = levelBits .M ∧ (0xE00000000000 : Cell).extractLsb' 42 2 = levelBits .T := by decide
/-- A queue item granted to thread 0's slot: GETWORK takes it at once. -/
theorem test_GetworkTakes : let s0 := withItem (anItem (.slot 0)) (ops [0, 0])
    let s := s0.modThr 0 fun th => { th with slot := some (anItem (.slot 0)).id }
    romRuns 0 2 0 (cellsOf [0, 0]) s = true ∧ currentItem (beginWord 0 s) 0 = none ∧ ((beginWord 0 s).thr 0).slot = some (anItem (.slot 0)).id ∧
      findItem (beginWord 0 s) (anItem (.slot 0)).id = some (anItem (.slot 0)) ∧ rsRoom (beginWord 0 s) 0 1 = true := by decide
/-- Thread 0's item holds the tag 5; that of thread 9, parked in TAG, waits for it. -/
def taggedItem : Item := { anItem (.current 0) with tag := some (5, .held) }
def waitingItem : Item := { anItem (.current 9) with id := 77, seq := 6, tag := some (5, .waiting) }
def tagging : State :=
  let s := withItem taggedItem State.reset
  let s1 := { s with fetch := { s.fetch with items := [taggedItem, waitingItem] } }
  (s1.setStk 9 .M false { s1.stk 9 .M false with res := cellsOf [0, 0, 5] }).modThr 9 fun th =>
    { th with cur := some 77, pend := .tag 5 { hi := 0, lo := 0 } }
theorem test_UntagHeld : let s := beginWord 0 tagging
    romRuns 0 0 0 [] tagging = true ∧ currentItem s 0 = some taggedItem ∧ taggedItem.tag = some (5, .held) ∧
      (∀ x ∈ s.fetch.items, x.id ≠ taggedItem.id → x.tag ≠ some (5, .held)) ∧ waitingItem ∈ s.fetch.items ∧ waitingItem.id ≠ taggedItem.id ∧
      waitingItem.place = .current 9 ∧ (s.thr 9).cur = some waitingItem.id ∧ (s.thr 9).pend = .tag 5 { hi := 0, lo := 0 } ∧
      (s.thr 9).inj = none ∧ mayWake s 9 = true ∧ (s.thr 9).robPar = false ∧ pcHits s 9 = 0 ∧
      3 ≤ (s.stk 9 (curLevel s 9) false).res.length ∧ residents s 9 false ≤ 16 := by decide
theorem test_UntagHeld_grants : ∀ x ∈ [taggedItem, waitingItem], ∀ e, x.tag ≠ some (e, .granted) := by simp [taggedItem, waitingItem]
/-- The wait ends with the tag held, and both threads go on. -/
theorem test_untag_grant : ((findItem (wakeTags (dropTag (beginWord 0 tagging) taggedItem.id)) 77).map (·.tag)) = some (some (5, .held)) := by decide +kernel
/-- A store to a tile register, and one of the frame window, of thread 0. -/
theorem test_StoreDrainReg : let e := storeAt 0x40000008 [0, 0, 0, 0, 0, 9]
    Drains 0 e (buffered e) ∧ spanRegion (some 0) e.ea.toNat e.bytes.length = some .reg ∧ regAt (some 0) e.ea.toNat = some (.tile 1) ∧
      Quiet (regStore (.thread 0) e.lvl (.tile 1) (bytesCell e.bytes) ((buffered e).modCor 0 fun k => { k with sb := k.sb.erase e })) :=
  ⟨drains_of _ (by decide), by decide, by decide, quiet_of (by decide +kernel) (by decide +kernel) (by decide +kernel)⟩
theorem test_StoreDrainReg_arith : regAt (some 0) (RegRef.thread 0 2).addr = some (.thread 0 2) := by decide
theorem test_StoreDrainFrame : let e := storeAt 0x30000000 [1, 2]
    let s := (withItem (anItem (.current 0)) State.reset).modCor 0 fun k => { k with sb := [e] }
    (∃ rest, storesOf s 0 = e :: rest) ∧ e.phase = .waiting ∧ e.par = 0 ∧ s.boot = .run ∧ Quiet s ∧
      spanRegion (some 0) e.ea.toNat e.bytes.length = some .frame ∧ currentItem s 0 = some (anItem (.current 0)) :=
  ⟨⟨[], rfl⟩, rfl, rfl, rfl, quiet_of (by decide) (by decide) (by decide), by decide, by decide⟩
/-- A core reset that waits for its acknowledgement, alone and with another of the same core due. -/
theorem test_CoreReset : let s := (State.reset.modCor 15 fun k => { k with inReset := some 5 })
    let s1 := { s with ownWait := some (.core 15) }
    let s2 := { s1 with ownq := [.core 15] }
    State.reset.boot = .run ∧ State.reset.fetch.items = [] ∧ s1.ownWait = some (.core 15) ∧ (s1.cor 15).inReset = some 5 ∧ Quiet s1 ∧
      OwnScope.core 15 ∉ s1.ownq ∧ Quiet s2 ∧ OwnScope.core 15 ∈ s2.ownq :=
  ⟨by decide, by decide, by decide, by decide, quiet_of (by decide +kernel) (by decide) (by decide), by decide,
    quiet_of (by decide +kernel) (by decide) (by decide), by decide⟩
/-- The sources of a tile reset, each allowed once and barred once. -/
theorem test_TileResets_sources : let bite := State.reset.modCor 3 fun k => { k with wdg := { k.wdg with stage := .bite, count := 0, scope := true, ticked := true } }
    let due := { State.reset with lc := { State.reset.lc with busy := true, phase := .marking } }
    let held := { State.reset with boot := .held 0 }
    let off := { State.reset with pwr := { State.reset.pwr with rest := .off } }
    State.reset.resetHeld = false ∧ whistleResetAllowed State.reset = true ∧ (bite.cor 3).wdg.stage = .bite ∧ (bite.cor 3).wdg.count = 0 ∧
      (bite.cor 3).wdg.scope = true ∧ (bite.cor 3).wdg.ticked = true ∧ bite.resetHeld = false ∧ lcDue due = true ∧ due.resetHeld = false ∧ held.resetHeld = true ∧
      off.pwr.rest = .off ∧ latchWakes off = false ∧ off.pwr.waking = false ∧ off.whi.presenceDue = false ∧
      (let woken := { off with pwr := { off.pwr with waking := true } }
       woken.pwr.rest = .off ∧ woken.pwr.waking = true) := by decide +kernel
/-- A thread's item when its core is bitten, at a node whose visits replay and at one whose do not, and with the loss log full. -/
def bitten (replay : Bool) (x : Item) (losses : List LossEntry) : State :=
  let s := (withItem x State.reset).modCor 0 fun k => { k with wdg := { k.wdg with stage := .bite, count := 0, scope := false, ticked := true } }
  { s with
    fetch := { s.fetch with nodes := [(3, { Node.boot with en := true, replay := replay })] }
    heel := { s.heel with losslog := losses } }
theorem test_FencedItems : let x := anItem (.current 0)
    let s := bitten true x []
    currentItem s 0 = some x ∧ s.fetch.items = [x] ∧ x.tag = none ∧ x.token = none ∧
      (threadIds.all fun v => decide (v = 0) || (s.thr v).cur.isNone) = true ∧ (threadIds.all fun v => (s.thr v).slot.isNone) = true ∧
      (s.cor 0).wdg.stage = .bite ∧ (s.cor 0).wdg.count = 0 ∧ (s.cor 0).wdg.ticked = true ∧ (s.cor 0).wdg.scope = false ∧ (s.nodeOf x.node).replay = true ∧
      x.marked = false ∧ ((bitten false x []).nodeOf x.node).replay = false ∧
      (bitten false x (List.replicate 32 { cause := 0, core := 0, flow := 0, seq := 0 })).heel.losslog.length = 32 := by decide +kernel
/-- A node for core 0, with a cost of 20 cycles and a path of 5. -/
def admitNode : Node := { Node.boot with en := true, cores := 1, cost := 20, pathw := 5, budget := 400 }
def admitting (xs : Nat) (w : Nat) : State :=
  let s := fetching flow5 []
  { s with fetch := { s.fetch with admitOn := true, nodes := [(3, admitNode)], xshare := BitVec.ofNat 4 xs, ledgers := List.replicate 16 (List.replicate 32 w) } }
theorem test_Admission : Offers (admitting 4 0) ∧ (admitting 4 0).fetch.admitOn = true ∧ ((admitting 4 0).nodeOf 3).en = true ∧
    ((admitting 4 0).nodeOf 3).ord ≠ .free ∧ ((admitting 4 0).flow 1) = flow5 ∧ qcount (admitting 4 0) < 3968 ∧
    coreAllowed (admitting 4 0) admitNode 0 = true ∧ normalCore (admitting 4 0) 0 = true :=
  ⟨offers_of (by decide), by decide, by decide, by decide, by decide, by decide, by decide, by decide⟩
theorem test_Admission_answers : ∀ x ∈ [(admitting 4 0, 0#2), (admitting 4 100, 1#2)],
    (offered (takeDescriptor cell0 0 0 0) x.1).ports.idescSt = x.2 := by decide +kernel
/-- One hole fits before an OUT token's sequence where the queue holds 3,967 entries. -/
theorem test_FenceTokens_holes : let s := fetching { flow5 with state := .active } []
    Offers s ∧ (s.flow 1).state = .active ∧ (s.flow 1).fresh = false ∧ (s.flow 1).free = false ∧
      (6 : BitVec 24) = (s.flow 1).nexta + BitVec.ofNat 24 1 ∧ (69 : BitVec 24) = (s.flow 1).nexta + BitVec.ofNat 24 64 ∧
      qcount s + 64 ≤ 3968 := ⟨offers_of (by decide), by decide, by decide, by decide, by decide, by decide, by decide⟩
/-- The last cell writes of a thread's store, of a Whistle write, of a transition's keys, and of a block instruction's last step. -/
def keeping (o : KeepOwner) (s : State) : State :=
  { s with ks := { s.ks with todo := [{ owner := o, addr := 0xF0000060, bytes := List.replicate 6 (some (encByte 1)) }] } }
theorem test_KeepStoreWrites : let e := { storeAt 0xF0000C00 [1, 2, 3, 4, 5, 6] with phase := .keep }
    let k := keeping (.thread 0) (buffered e)
    let o : WhiOp := { cmd := 4, next := 6, ask := none, result := none }
    let w := keeping .whistle { State.reset with whi := { State.reset.whi with op := some o } }
    let c := keeping .lifeCycle { State.reset with lc := { State.reset.lc with busy := true, phase := .copying, target := 3 } }
    uncoreRuns k = true ∧ Quiet k ∧ ((k.cor 0).sb.find? fun e => decide (e.thread = 0 ∧ e.phase = .keep)) = some e ∧
      uncoreRuns w = true ∧ Quiet w ∧ w.whi.op = some o ∧
      uncoreRuns c = true ∧ Quiet c ∧ c.lc.busy = true ∧ c.lc.phase = .copying ∧ isKeep 0xF0000060 = true ∧ isKeep 0xF0000065 = true :=
  ⟨by decide, quiet_of (by decide) (by decide) (by decide), by decide, by decide, quiet_of (by decide) (by decide) (by decide), by decide,
    by decide, quiet_of (by decide) (by decide) (by decide), by decide, by decide, by decide, by decide⟩
/-- FILL of 6 bytes at its one step. -/
def filling : State :=
  keeping (.thread 0) (inFlight (.block { kind := .fill, x := 1, a := 0xF0000C00, n := 6, buf := [1, 1, 1, 1, 1, 1], y := none })
    (bare [6, 0xF0000C00, 1]))
theorem test_KeepStoreWrites_block : ((filling.cor 0).sb.find? fun e => decide (e.thread = 0 ∧ e.phase = .keep)) = none ∧ pcHits filling 0 = 0 ∧
    filling.held = [] ∧ filling.dbg.stepping = false ∧ filling.dbg.injWait = none ∧
    (threadIds.all fun v => decide (v = 0) || decide ((filling.thr v).pend = .none)) = true ∧
    (∃ s1, ensureCur 0 false 3 filling = some s1) := ⟨by decide, by decide, by decide, by decide, by decide, by decide, _, Laws.ensure_resident (by decide)⟩
/-- The block instruction retires with the write's end. -/
theorem test_keep_block_ends : (((keepStoreWriteDone filling).thr 0).pend = .none) ∧
    ((keepStoreWriteDone filling).thr 0).arch.pc = (filling.thr 0).arch.pc + 1 ∧ (keepStoreWriteDone filling).ks.todo = [] := by decide +kernel
/-- The cells of a transition to each state, and one that waits. -/
theorem test_LifeCycleSteps : let at' := fun (n : BitVec 3) => { State.reset with lc := { State.reset.lc with stateOut := n, unlocked := true } }
    (∀ x ∈ [(0x1C5E00000001, 0#3), (0x1C5E00000002, 1), (0x1C5E00000003, 2), (0x1C5E00000004, 3)],
      let v : Cell := BitVec.ofNat 48 x.1
      v.extractLsb' 32 16 = 0x1C5E#16 ∧ (at' x.2).lc.stateOut < v.extractLsb' 0 3 ∧ v.extractLsb' 0 3 ≤ 4 ∧ (at' x.2).lc.busy = false ∧
        (at' x.2).knl.wiping = false) := by decide +kernel
theorem test_LifeCycleSteps_wait :
    let s := { State.reset with
      lc := { State.reset.lc with busy := true, phase := .waiting, target := 1 }
      knl := { State.reset.knl with wiping := true } }
    s.lc.busy = true ∧ s.lc.phase = .waiting ∧ s.lc.target = 1 ∧ s.knl.wiping = true ∧ uncoreRuns s = true := by decide
/-- The marks that a transition to SCRAP writes in a fresh keep store: all twelve cells, from 0xF000_0000 on. -/
theorem test_marks : ((lcTransition 0x1C5E00000001 State.reset).ks.todo.map (·.addr)) = [0xF0000000, 0xF0000018, 0xF0000030] ∧
    (marksDue State.reset 4).length = 12 ∧ (lcTransition 0x1C5E00000004 State.reset).ks.todo.length = 12 := by decide +kernel
/-- An injected PSET, and a FENCE behind a store. -/
theorem test_SelectStepInject_words : let s := { opsOn haltedState (cellsOf [5]) with dbg := { haltedState.dbg with sel := 0 } }
    let fresh := { s with dbg := { s.dbg with istDone := false, istExc := false, istRefused := false } }
    let mine := fresh.modThr 0 fun th => { th with inj := some true }
    let z := haltedState.modCor 0 fun k => { k with sb := [storeAt 0x1008 [1]] }
    s.dbg.halted = true ∧ s.dbg.selReady = true ∧ s.dbg.stepping = false ∧ s.dbg.selWait = none ∧ s.dbg.injWait = none ∧ (s.thr 0).inj = none ∧
      1 ≤ curDepth s 0 false ∧ ensureCur 0 false 1 mine = some mine ∧ curTop mine 0 false 1 = [PCell.of 5] ∧
      (z.thr 0).pend = .none ∧ 0 ≤ curDepth z 0 false ∧ storesOf z 0 ≠ [] ∧ (haltedState.cor 0).mapPar = false ∧
      (haltedState.thr 0).robPar = false ∧ (haltedState.thr 0).chainAt = none :=
  ⟨by decide, by decide, by decide, by decide, by decide, by decide, by decide, Laws.ensure_resident (by decide), by decide, by decide, by decide,
    by decide, by decide, by decide, by decide⟩
/-- What the debugger injected: a PSET of p1 pops its cell; a FENCE waits. -/
theorem test_inject : let u := debugInject true (0#2 ++ 0x230#10 ++ 1#2) (opsOn haltedState (cellsOf [5]))
    (u.thr 0).arch.p1 = true ∧ (u.stk 0 .M false).res = [] ∧ u.dbg.istDone = true ∧ (u.thr 0).inj = none ∧
    (debugInject true 0xB24 (haltedState.modCor 0 fun k => { k with sb := [storeAt 0x1008 [1]] })).dbg.injWait = some (true, 0xB24) := by decide +kernel
theorem test_Resume : let s := { haltedState with dbg := { haltedState.dbg with cmpThreads := [0, 9] } }
    s.dbg.halted = true ∧ s.held = [] ∧ s.dbg.romDue = [] ∧ (threadIds.all fun u => decide (parkCode (s.thr u).pend = 0)) = true ∧
      (threadIds.all fun u => decide ((s.thr u).pend = .none)) = true := by decide
/-- A step of the time in the cycle of a FOLLOW load; MISS after 1.5 × 10⁹ cycles without an edge. -/
theorem test_TimeStep_load : let tk := { State.reset.tk with load := some 0, mode := .follow }
    tk.load = some 0 ∧ (followValue tk).isSome = true ∧ (followValue { tk with buslo := 0x3B9ACA000000 }) = none := by decide
theorem test_PpsMiss : let tk := { State.reset.tk with mode := .capture, ppsAge := some 1500000000 }
    tk.mode ≠ .free ∧ tk.ppsAge = some 1500000000 ∧ ∀ n, { tk with ppsAge := some 1499999999 }.ppsAge = some n → n < 1500000000 :=
  ⟨by decide, by decide, fun n h => by cases h; decide⟩
/-- A load that a whole line answers. -/
theorem test_FabricAnswers_line : let s0 := asked false (.load 0) (inFlight (.load { width := 6, signed := false, lr := false, form := .base } 0x20000016 0) (bare [0x20000016]))
    let q : FabReq := { tag := 9, we := false, addr := 16, len := 48, wdata := [], owner := 0, peek := false, use := .load 0 }
    let s := { s0.modCor 0 fun k => { k with dfills := [(0x20000010, some 9)] } with fab := { s0.fab with out := [q] } }
    Quiet s ∧ findReq s 9 = some q ∧ (0x20000010, some 9) ∈ (s.cor 0).dfills ∧ mayWake s 0 = true ∧ (s.thr 0).robPar = false ∧
      pcHits s 0 = 0 ∧ dataHits s 0 false 0x20000016 6 = 0 :=
  ⟨quiet_of (by decide +kernel) (by decide) (by decide), by decide, by decide, by decide, by decide, by decide, by decide⟩
/-- A core that runs a leash, one that is deterministic, and an exit that ends with the uncore at Nap, or waits for a sleeping tile. -/
theorem test_CoreRestAndWake_barred : ((leashed { LeashReg.clear with on := true }).thr 0).leash.on = true ∧
    (State.reset.thr 0).en = true ∧ (State.reset.thr 0).stopped = false ∧ parkCode (State.reset.thr 0).pend = 0 ∧
    ((still.modCor 0 fun k => { k with det := true }).cor 0).det = true ∧
    (let s := { (State.reset.modCor 0 fun k => { k with rest := .nap, waking := true }) with pwr := { State.reset.pwr with rest := .nap } }
     (s.cor 0).waking = true ∧ s.pwr.rest = .nap ∧ s.held = [] ∧ s.frozen = false) ∧
    (let s := { (State.reset.modCor 0 fun k => { k with rest := .doze, waking := true }) with pwr := { State.reset.pwr with rest := .sleep } }
     s.pwr.rest ≠ .nap ∧ s.pwr.rest ≠ .run ∧ (s.cor 0).waking = true ∧ s.pwr.waking = false ∧ latchWakes s = false) := by decide +kernel
theorem test_TileRestLevels_waits : let s := { State.reset with pwr := { State.reset.pwr with req := some .off }, dbg := { State.reset.dbg with halted := true } }
    let z := { State.reset with pwr := { State.reset.pwr with req := some .nap, waking := true } }
    let busy := keeping .orphan { State.reset with pwr := { State.reset.pwr with req := some .off } }
    s.frozen = true ∧ z.frozen = false ∧ wakeStands z = true ∧ wakeStands busy = false ∧ busy.ks.todo ≠ [] ∧ busy.pwr.req = some .off ∧
      wakeStands State.reset = false ∧ uncoreRuns State.reset = true := by decide +kernel
theorem test_InterruptEntry_first : firstFor pending64 0 64 = true ∧ mcWaits pending64 0 = false ∧ (pending64.thr 0).robPar = false ∧
    mcWaits { State.reset with tic := { State.reset.tic with mcPend := true } } 0 = true ∧
    (interruptEntry 0 pending64).src 64 = { pending64.src 64 with held := some 0 } := by decide +kernel
theorem test_RegisterWrites_windows : (∀ k ∈ [33, 34, 35, 36], reaches (.thread 0) (.thread 127 k) 5 State.reset = true) ∧
    (∀ k ∈ [2049, 2559], reaches .whistle (.tile k) 5 State.reset = true) := by decide

/-! ### Witnesses: corners of the claims above -/

/-- A return stack with a COUNT entry over the ADDR entry of RET; the same for the first arrival of a NEXT that stands elsewhere. -/
theorem test_ReturnResult_counts : let x := PCell.of 0x800000000000
    let c := PCell.of 0x400000000201
    let s := retsOn State.reset [x, c]
    romRuns 0 0 0 [] s = true ∧ ((1 : Nat) : Int) < curDepth (beginWord 0 s) 0 true ∧ ((beginWord 0 s).stk 0 .M true).res = [x] ++ c :: [] ∧
      x.val.extractLsb' 46 2 = 2 ∧ c.val.extractLsb' 46 2 = 1 ∧ residents (beginWord 0 s) 0 true ≤ 24 := by decide
theorem test_LoopResults_above : let s := retsOn (ops [3]) [PCell.of 0x8000000000AA]
    romRuns 0 0 0 [] s = true ∧ 0 < curDepth (beginWord 0 s) 0 true ∧ ((beginWord 0 s).stk 0 .M true).res = [PCell.of 0x8000000000AA] ∧
      (0x8000000000AA : Cell).extractLsb' 0 20 ≠ (s.thr 0).arch.pc ∧ 0 < curDepth (beginWord 0 s) 0 false ∧
      rsRoom (beginWord 0 s) 0 1 = true := by decide
/-- The vector's words of M level at reset stand in the boot ROM, those of T level in the local program RAM. -/
theorem test_ExceptionEntry_fetches (j : Fin 4) :
    (∃ w, ∀ x : State, x.cores = State.reset.cores → x.sprog = State.reset.sprog →
      fetchWord x 0 ((State.reset.cor 0).vbaseM ++ 0#9 + BitVec.ofNat 20 j.val) = (.word w, x)) ∧ ((State.reset.cor 0).vbase .M) = (State.reset.cor 0).vbaseM := by
  refine ⟨⟨Config.bootWord (0xFFE00 + j.val), fun x _ _ => ?_⟩, rfl⟩
  match j with
  | 0 => rfl
  | 1 => rfl
  | 2 => rfl
  | 3 => rfl
/-- A store to THR.ARITH that has drained in the cycle of a word that overflows: the store's OV stays (R43). -/
theorem test_arith_meets : let s := (ops [2, 0x400000000000]).modThr 0 fun th => { th with arithMet := true }
    romRuns 0 2 1 (cellsOf [2, 0x400000000000]) s = true ∧ ((beginWord 0 s).thr 0).arithMet = true ∧
      ((setOv 0 true (beginWord 0 s)).thr 0).arith.ov = false ∧ ((setOv 0 true (beginWord 0 (ops []))).thr 0).arith.ov = true := by decide
theorem test_OrderAndCacheResults_local : shapesRun [(2, 0, [0, 0x820]), (2, 0, [0x7FFF, 0x820]), (1, 1, [0x7FFF]), (1, 1, [0xFF000]), (1, 1, [0xFFFFF]),
    (2, 0, [0xFF000, 0x820])] = true ∧ localOk (smGet localKill ((beginWord 0 State.reset).cor 0).lprog 0x7FFF) = true ∧
    localOk 0 ≠ localOk 1 := by decide
/-- A helper word in flight whose class has gone meanwhile. -/
theorem test_HelperAbsentAtEnd : let s := { helping .hash [1, 2] with help := { (helping .hash [1, 2]).help with ready := 0 } }
    mayWake s 0 = true ∧ (s.thr 0).pend = .helper .hash [1, 2] ∧ queuedFor s 0 HelperKind.hash.cls = false ∧
      ensureCur 0 false HelperKind.hash.pops s = some s ∧ (s.thr 0).robPar = false ∧ helperHits s 0 .hash [1, 2] = 0 ∧
      mcWaits s 0 = false ∧ helperPresent s HelperKind.hash.cls = false :=
  ⟨by decide, by decide, by decide, Laws.ensure_resident (by decide), by decide, by decide, by decide, by decide⟩
theorem test_SemaphoreAnswers_clean : let s := inFlight (.cas6 0x20000004 .offered) (bare [0x20000004, 1, 2])
    (s.thr 0).robPar = false ∧ cas6Hits s 0 0x20000004 = 0 ∧ (5 : BitVec 3) ∉ [0#3, 1#3, 3#3, 4#3] ∧
      mcWaits { s.modThr 0 fun th => { th with pend := .none } with ports := { s.ports with semReq := [] } } 0 = false := by decide
/-- A request at the age at which it times out, one cycle before it, and one that never does. -/
def agedLoad (age : Nat) (limit : BitVec 24) : State :=
  { loading with fab := { loading.fab with timeout := limit, out := loading.fab.out.map fun q => { q with age := age } } }
theorem test_FabricAnswers_due : (∀ x ∈ [(7, 7#24, true), (6, 7, false), (7, 0, false)],
      (decide ((agedLoad x.1 x.2.1).fab.timeout ≠ 0) && ((findReq (agedLoad x.1 x.2.1) 255).any fun q => decide ((agedLoad x.1 x.2.1).fab.timeout.toNat ≤ q.age))) =
        x.2.2) ∧
    (loading.thr 0).robPar = false ∧ loadHits loading 0 { width := 6, signed := false, lr := false, form := .base } 0x20000004 = 0 ∧
      mcWaits loading 0 = false := by decide
/-- A napping uncore that no debugger emulates, and an emulated one. -/
theorem test_TimeKeeperCycle_nap : let s := fun (a : Bool) => { State.reset with
        pwr := { State.reset.pwr with rest := .nap }, dbg := { State.reset.dbg with attached := a } }
    (s false).boot = .run ∧ (s false).pwr.rest = .nap ∧ (s false).emulates = false ∧ (s false).tk.load ≠ some 0 ∧
      (0 : Int) ≤ ((s false).tk.tb : Int) + (s false).tk.incr.toNat + (s false).tk.adj.toInt.sign * min (s false).tk.adj.toInt.natAbs 1 * 2 ^ 24 ∧
      (s true).emulates = true ∧ (s true).pwr.rest ≠ .off := by decide
/-- A reset that is held, and one whose keep store holds no byte that a read corrects. -/
theorem test_TileResets_reads (kind : BitVec 3) (pins : Pins) : BootReadsSound kind true pins State.reset ∧
    BootReadsSound 2 false pins { State.reset with mem := [] } := by
  refine ⟨.inl rfl, .inr fun a _ d => ?_⟩
  show classify 0 ≠ _
  rw [show classify 0 = ByteClass.clear from by decide]
  exact fun e => by cases e
/-- HALT in a halted tile, in one that halts, and while a step runs. -/
theorem test_HaltAndRelease_halted : haltedState.dbg.halted = true ∧
    ({ haltedState with dbg := { haltedState.dbg with stepping := true } } : State).dbg.halted = true ∧
    (let s := { attachedState with dbg := { attachedState.dbg with halting := true } }
     s.dbg.halting = true ∧ s.dbg.stepping = false) := by decide
/-- A deterministic core with a store of the thread that has still to drain. -/
theorem test_StepAndInject_drains : let s := haltedState.modCor 0 fun k => { k with act := true, sb := [storeAt 0x1008 [1]] }
    drainsFirst s 0 = true ∧ s.dbg.halted = true ∧ s.dbg.selReady = true ∧ (s.thr 0).stopped = false ∧ (s.cor 0).mapPar = false ∧
      injectRefused 0x007 = false ∧ drainsFirst haltedState 0 = false := by decide
/-- A break in a tile that runs, in one that naps, and in one that is Off. -/
theorem test_WhistleLows_rest : let at' := fun (r : TileRest) => { State.reset with pwr := { State.reset.pwr with rest := r } }
    (whistleBreak (at' .run)).ports.presence = true ∧ (whistleBreak (at' .nap)).whi.presenceDue = true ∧
      (whistleBreak (at' .nap)).pwr.waking = true ∧ (whistleBreak (at' .off)).whi.presenceDue = true ∧
      uncoreRuns (whistleBreak (at' .off)) = false := by decide
/-- A cancel ahead of the flow's next sequence, one behind it that is not held, and one for an item that another has reached. -/
theorem test_CancelsAndTokens_others : let s := fetching flow5 []
    (s.flow 1).free = false ∧ cancelTarget s 1 6 = none ∧ (6 - (s.flow 1).nexta : BitVec 24).toNat < 2 ^ 23 ∧
      cancelTarget s 1 4 = none ∧ 2 ^ 23 ≤ (4 - (s.flow 1).nexta : BitVec 24).toNat ∧
      isCancelled { anItem (.current 0) with marked := true } = true ∧ isCancelled (anItem .hole) = true ∧
      (tokenCell + 1).extractLsb' 0 8 ≠ (0 : BitVec 8) := by decide
theorem test_FenceTokens_refused : let s := fun (st : FlowState) => fetching { flow5 with state := st } []
    ((s .arriving).flow 1).state = .arriving ∧ ((s .active).flow 1).state ≠ .idle ∧ ((s .active).flow 1).state ≠ .arriving ∧
      64 < ((70 : BitVec 24) - ((s .active).flow 1).nexta).toNat ∧ (1 : Cell) ≠ 0 ∧ (3#2 ++ 0#46 : Cell).extractLsb' 46 2 = 3 ∧
      ((s .arriving).flow 1).infl = 0 := by decide
/-- One flipped bit of a code corrects; two do not. -/
theorem test_ScrubSteps_bytes : let s := { State.reset with
      ecc := { State.reset.ecc with enSp := true, enKn := true, enSh := true }
      mem := [(0x10000000, encByte 9 ^^^ 1), (0x10000001, encByte 9 ^^^ 3)] }
    (match classify (smGet 0 s.mem 0x10000000) with
      | .ce d => decide (d = 9)
      | _ => false) = true ∧ classify (smGet 0 s.mem 0x10000001) = .ue ∧
    s.ecc.uelog.length ≤ 8 ∧ s.ecc.cecnt.length = 86 ∧ s.ticStopped = false := by decide +kernel
/-- A step over those bytes: the log, the count, POISONED and source 5. -/
theorem test_scrub_step : let s := { State.reset with
      ecc := { State.reset.ecc with enSp := true, enKn := true, enSh := true, left := List.replicate 18 0 }
      mem := [(0x10000000, encByte 9 ^^^ 1), (0x10000001, encByte 9 ^^^ 3)] }
    let w := (List.range 18).find? fun i => decide (0x10000001 ∈ walkerBytes i 0)
    w.isSome = true ∧ (let u := scrubStep (w.getD 0) s
      u.ecc.poisoned = true ∧ (u.src 5).pend = true ∧ u.ecc.uelog.length = 1 ∧ u.ecc.cecnt.getD 10 0 = 1 ∧
        (u.ecc.celog.map (·.addr)) = [0x10000000] ∧ u.ecc.left.getD (w.getD 0) 0 = 2 ^ 6 + 1 ∧ smGet 0 u.mem 0x10000000 = encByte 9 ∧ smGet 0 u.mem 0x10000001 = poisonByte) := by decide +kernel
theorem test_KeepStoreWrites_watch : dataHits filling 0 true 0xF0000C00 6 = 0 ∧ (filling.thr 0).robPar = false := by decide
/-- A release of a borrow whose copy-in still runs. -/
theorem test_BorrowWindow_release : let s := State.reset.modCor 0 fun k => { k with borrow := { k.borrow with active := true, copying := true, back := false } }
    (s.cor 0).borrow.active = true ∧ (s.cor 0).borrow.copying = true ∧ (s.cor 0).borrow.back = false := by decide
/-- An event latch that is set calls its core, which neither naps nor dozes. -/
theorem test_CoreRest_called : let s := still.modThr 0 fun th => { th with en := true, stopped := false, ev := true, pend := .wfe { hi := 0x7FFFFFFFFFFF, lo := 0 } }
    coreCalled s 0 = true ∧ mayNap s 0 = false ∧
      (let z := s.modCor 0 fun k => { k with rest := .nap }
       (z.cor 0).rest ≠ .run ∧ wakeStands z = true ∧ wakeStands s = false) := by decide +kernel
/-- A descriptor offered while the uncore naps, and while it is at an emulated Nap. -/
theorem test_TileRestLevels_offer : let s := fun (a : Bool) => { State.reset with
        pwr := { State.reset.pwr with rest := .nap }, dbg := { State.reset.dbg with attached := a } }
    (s false).frozen = false ∧ fetchRuns (s false) = false ∧ fetchRuns (s true) = true ∧
      ∀ a ∈ [false, true], (offered (takeDescriptor 0 0 0 0) (s a)).pwr.waking = true := by decide +kernel
/-- A class held off whose one operation has delivered its results, and one that another waits for. -/
theorem test_HelperPower_delivered : let s := { State.reset with help := { State.reset.help with off := 0b1000 } }
    helperQueues s (3 : Fin 4).val = false ∧ s.frozen = false ∧
      ({ s with dbg := { s.dbg with halted := true } } : State).frozen = true := by decide
/-- A profile that fails its checks while a load runs; a load that ends while a core is borrowed. -/
theorem test_Profiles_bad_loading : let s := { State.reset with mem := [], pwr := { State.reset.pwr with loading := true } }
    loadProfile s 3 = none ∧ (profileLoadCommand 3 s).pwr.proferr = true ∧ (profileLoadCommand 3 s).pwr.refused = true := by decide +kernel
theorem test_Profiles_barred : let s := State.reset.modCor 0 fun k => { k with borrow := { k.borrow with active := true } }
    (s.cor 0).borrow.active = true ∧ (s.cor 0).act = false ∧
      (let u := loadCore { fallbackProfile with det := 0xFFFF } 0 0 (s.cor 0)
       u.det = true ∧ u.act = false ∧ u.switching = true) := by decide +kernel
theorem test_RegisterWrites_status : reaches .whistle (.tile 25) 1 State.reset = true ∧
    (let s := { State.reset with tk := { State.reset.tk with pps := true, ppsAge := some 0 } }
     (regStore .whistle .M (.tile 25) 1 s).tk.pps = true ∧
       (regStore .whistle .M (.tile 25) 1 { s with tk := { s.tk with ppsAge := some 1 } }).tk.pps = false) := by decide +kernel
/-- A grant of a level whose conditions hold, and of one whose no longer do. -/
theorem test_TileRestLevels_grants : let asks := fun (r : TileRest) (s : State) => { s with pwr := { s.pwr with req := some r } }
    (let s := asks .nap (resting .nap .run)
     s.frozen = false ∧ wakeStands s = false ∧ napHolds s = true ∧ (pwrAck s).pwr.rest = .nap) ∧
    (let s := asks .sleep (resting .doze .run)
     s.dbg.attached = false ∧ wakeStands s = false ∧ sleepHolds s = true ∧ (pwrAck s).pwr.rest = .sleep) ∧
    napHolds State.reset = false ∧ sleepHolds State.reset = false ∧ wakeStands (asks .sleep State.reset) = false := by decide +kernel
/-- An event latch that stood in the core's latest cycle at Run bars no nap; the core's next cycle at Run takes note of it. -/
theorem test_CoreRest_seen : let s0 := still.modThr 0 fun th => { th with en := true, stopped := false, ev := true, pend := .waitt { hi := 0x800000000000, lo := 0 } }
    let s := s0.modCor 0 fun k => { k with seen := [.event 0] }
    standingCalls s 0 = [.event 0] ∧ threadCalled s 0 = false ∧ coreCalled s0 0 = true ∧ coreCalled s 0 = false ∧ mayNap s 0 = true ∧
      callsSeen s0 0 = [.event 0] := by decide +kernel
/-- A store to DWLO of a thread that is being reset, and one of another thread. -/
theorem test_StoreDrainReg_atReset : let e := storeAt 0x40200320 [0, 0, 0, 0, 0, 5]
    let s := { buffered { e with thread := 0 } with ownq := [.thread 3] }
    (regAt (some 0) e.ea.toNat).isSome = true ∧ resetTakes 0 e s = true ∧ resetTakes 0 e { s with ownq := [.thread 4] } = false ∧
      ((storeDrain 0 false true s).cor 0).sb = [] ∧ (storeDrain 0 false true s).threads = s.threads := by decide +kernel
/-- A stepped CAS6 that the semaphore unit stalls, and one that it answers. -/
theorem test_HaltAndRelease_cas6 : let s := inFlight (.cas6 0x20000004 (.taken (some 9) true)) (opsOn { haltedState with dbg := { haltedState.dbg with stepping := true } } (cellsOf [0x20000004, 1, 0]))
    s.dbg.halting = false ∧ s.dbg.selWait = none ∧ s.dbg.sel = BitVec.ofNat 7 (0 : ThreadId).val ∧ (haltComplete s).dbg.stepst = 3 ∧
      (semAnswer 0 0 0 s).dbg.stepst = 1 ∧ (semAnswer 0 0 5 s).dbg.stepst = 2 ∧ ((semAnswer 0 0 0 s).thr 0).pend = .none := by decide +kernel
/-- A block instruction whose last step ends in a halt yields with n at 0 and the PC at its word. -/
theorem test_KeepStoreWrites_halted : let s := { filling with dbg := { filling.dbg with halting := true } }
    s.frozen = true ∧ (s.thr 0).inj = none ∧
      (let u := keepStoreWriteDone s
       (u.thr 0).pend = .none ∧ (u.thr 0).arch.pc = (s.thr 0).arch.pc ∧ ((curTop u 0 false 1).map (·.val)) = [0]) := by decide +kernel
/-- Ages of fabric requests run in a halt; the marks of the branch target buffer last one cycle. -/
theorem test_TimeKeeping_halted : let s0 := asked false .whistle haltedState
    let s := s0.modCor 0 fun k => { k with btbMark := [{ idx := 1, thread := 0, old := none }] }
    let ages := fun (rdy : Bool) => ((fabCycle rdy (fun _ => false) { s.fab with out := s.fab.out ++ s.fab.out.map fun r => { r with taken := true } }).out.map (·.age))
    ages true = [0, 1] ∧ ages false = [0, 1] ∧ ((coreCycle s).cor 0).btbMark = [] := by decide +kernel
/-- A break in a held reset; a Whistle request while the tile's OWNER_RESET awaits its acknowledgement. -/
theorem test_WhistleLows_held : let s := { State.reset with boot := .held 2 }
    (whistleBreak s).ports.presence = false ∧ (whistleBreak s).dbg.attached = true ∧ s.resetHeld = true ∧
    (let z := { State.reset with ownq := [.tile] }
     ownerHeld z 0 = true ∧ ownerHeld State.reset 0 = false ∧
      (whiSend { addr := 0x20000000, len := 6, wdata := none } { cmd := 2, next := 0, ask := none, result := none } z).fab.out = []) := by decide
/-- A crypto operation in flight and one that is queued, at a wipe. -/
theorem test_KennelWipe_queued : let s := fun (i : Option Nat) => { helping .sha256 [1, 2, 3] with help := { Helpers.boot driveProfile with reqs := [{ thread := 0, cls := 1, inst := i }] } }
    ((wipeKennel 3 (s none)).thr 0).pend = .helper .sha256 [1, 2, 3] ∧ ((wipeKennel 3 (s (some 0))).thr 0).pend = .helper .sha256 [] := by decide +kernel
/-- A parity error in a cell that NIP reads; SWAP moves it on. -/
theorem test_ShuffleResults_parity : let bad : PCell := { val := 7, poison := 0, par := 1 }
    (semNip 0).test [PCell.of 1, bad] = some { cause := 0x0D, sub := 0, addr := 0 } ∧ (semSwap 0).test [PCell.of 1, bad] = none ∧
      (semPick 0 1).test [bad, PCell.of 1] = none := by decide
/-- A buffered frame-window store whose visit a KILL has broken off. -/
theorem test_StoreDrainFrame_stray : let e := { storeAt 0x30000000 [1] with stray := true }
    spanRegion (some 0) e.ea.toNat e.bytes.length = some .frame ∧ storesOf (buffered e) 0 = [e] ∧ e.stray = true := by decide

/-- A store to THR.PRED that drains in the cycle of a PSET: the stored value stands (R57); without `meet` the word writes. -/
theorem test_PredicateResults_met : let e := storeAt (BitVec.ofNat 36 (RegRef.addr (.thread 0 3))) [0, 0, 0, 0, 0, 0x0A]
    let u := fun (meet : Bool) => storeDrain 0 meet false { (ops [5]).modCor 0 fun k => { k with sb := [e] } with dbg := State.reset.dbg }
    regAt (some 0) e.ea.toNat = some (.thread 0 3) ∧ ((u true).thr 0).predMet = true ∧ ((u false).thr 0).predMet = false ∧
      ((u true).thr 0).arch.p3 = true ∧ ((u true).thr 0).arch.p2 = false ∧ romRuns 0 1 0 (cellsOf [5]) (u true) = true ∧
      ((putPred 0 2 true (u true)).thr 0).arch.p2 = false ∧ ((putPred 0 2 true (u false)).thr 0).arch.p2 = true := by decide +kernel
/-- After the entry of source 64 at priority 9 a store lowers THR.IPL: a source of priority 5 is no late arrival, one of priority 15 is, and
then one of priority 12 is none (R278). -/
theorem test_lateArrival_set : let s := fun (p : BitVec 4) => (((beginWord 0 pending64).setSrc 65 { pending64.src 64 with prio := p }).setSrc 64 Src.boot).modThr 0 fun th =>
        { th with entering := some (.M, 9), arch := { th.arch with ipl := 0 } }
    let into := fun (x : State) => retsOn x [PCell.of 0x000008000000, PCell.of 0]
    (lateArrival 0 .M 9 (into (s 5))).tic = (s 5).tic ∧ ((lateArrival 0 .M 9 (into (s 15))).src 65).held = some 0 ∧
      ((lateArrival 0 .M 9 (into (s 15))).thr 0).entering = some (.M, 15) := by decide +kernel
/-- A thread that has unstacked from M to T, to whose THR.PRED and THR.OSLIM.T stores then drain: an abandoned unstacking keeps them
(R282). -/
theorem test_abandoned : let a := State.reset.thr 0
    let s := State.reset.modThr 0 fun th => { th with unstack := some a.arch, arch := { a.arch with level := .T } }
    let u := storeThread .whistle .M 0 21 0x000006000400 (storeThread .whistle .M 0 3 0x00A s)
    ((u.thr 0).unstack.map fun x => (x.level, x.p1, x.p3, x.stT.os.hi)) = some (.M, true, true, 0x400) ∧ (u.thr 0).arch.level = .T ∧
      (u.stk 0 .T false).hi = 0x400 := by decide +kernel
/-- The overwrite leaves no byte that was written to the kennel during the wipe (R311). -/
theorem test_KennelWipe_written : let s := { State.reset with mem := [(5, 9), (0x10700004, encByte 7)], knl := { State.reset.knl with wiping := true } }
    isKennel 0x10700004 = true ∧ uncoreRuns s = true ∧ s.lc.busy = false ∧
      (match exec .kennelOverwriteDone s with
        | .next u => u.mem
        | _ => s.mem) = [(5, 9)] := by decide +kernel
/-- A cell write of the keep store in progress at a tile reset: DONE, and source 35 pends, over the release of a held reset too (R323). -/
theorem test_TileResets_keep : let s := keepStart .orphan 0xF0001800 [1, 2, 3, 4, 5, 6] State.reset
    s.ks.todo ≠ [] ∧ bootSrc 2 s = [(35, { Src.boot with pend := true })] ∧ bootSrc 0 s = [] ∧ bootSrc 2 State.reset = [] ∧
      bootSrc 2 { State.reset with boot := .held 2, tic := { State.reset.tic with src := bootSrc 2 s } } = bootSrc 2 s := by decide +kernel
/-- A low on the line while a pin holds the tile in reset, where the life cycle allows it and where not; the same for a tile that is Off. -/
theorem test_WhistleLows_pinned : let s := fun (st : BitVec 3) => { whiState st 7 with boot := .held 2 }
    let off := { State.reset with pwr := { State.reset.pwr with rest := .off } }
    (s 0).resetHeld = true ∧ ((whistleReset 20000 State.reset.pins (s 0)).dbg.attached, (whistleReset 20000 State.reset.pins (s 0)).whi.link) = (false, 7) ∧
      ((whistleReset 20000 State.reset.pins (s 2)).dbg.attached, (whistleReset 20000 State.reset.pins (s 2)).whi.link) = (true, 0) ∧
      off.resetHeld = false ∧ (whistleReset 20000 State.reset.pins off).dbg.attached = true := by decide +kernel
/-- A register of a core that is being reset, for the Whistle port and as a register write (R504). -/
theorem test_ResetUnderWay : let x : RegRef := .core 0 7
    let s := (whiState 0 (BitVec.ofNat 36 x.addr)).modCor 0 fun k => { k with inReset := some 0 }
    ResetUnderWay x s ∧ resetCovers s x = true ∧ resetCovers State.reset x = false ∧ reaches .whistle x 5 s = true ∧
      accepts 4 (frameOf 4 6 7) s = true ∧ whiCheck s true x.addr 6 = .ok .reg ∧ regAt none x.addr = some x :=
  ⟨.inr ⟨by decide, .inl ⟨0, 7, rfl, by decide, by decide⟩⟩, by decide, by decide, by decide +kernel, by decide +kernel, rfl, by decide⟩
/-- The level of a visit: the descriptor's PRIO, and after a transfer that of the node as it stands (R356, R363). -/
theorem test_ItemDispatch_prio : let node := fun (p : BitVec 3) => { fetching flow5 [] with fetch := { State.reset.fetch with nodes := [(3, { Node.boot with prio := p })] } }
    let first : Item := { anItem .queued with prio := some 4, elig := 9 }
    let later : Item := { anItem .queued with elig := 8 }
    outranks (node 5) later first = true ∧ outranks (node 3) later first = false ∧ bestItem (node 3) [later, first] = some first ∧
      visitPrio (node 3) later = 3 := by decide +kernel
/-- A word that was injected goes on also on a thread that KILL has stopped (R463, R465); no other word of it does. -/
theorem test_inject_stopped : let s := fun (i : Option Bool) => { haltedState.modThr 0 fun th => { th with stopped := true, inj := i } with dbg := { haltedState.dbg with stepping := true, sel := 0 } }
    mayWake (s (some true)) 0 = true ∧ mayWake (s none) 0 = false := by decide
theorem test_StepAndInject_pred : (haltedState.thr 0).predMet = false ∧ 0 ≤ ((ops []).stk 0 .M false).depth := by decide

/-! ### Witnesses: literals, gates, ports, comparators, the boot ROM -/

/-- The state that a command answers. -/
def ran (o : Host.Outcome State Fault Refusal) : State := match o with
  | .next u => u
  | _ => State.reset
/-- A cell that a literal has pushed, with a parity error and poison that nothing reads. -/
def litCell : PCell := { val := 5, poison := 1, par := 1, isK := true }
/-- LITX on a class-K cell reads none; on any other it does (R83, R200). -/
theorem test_LiteralResults : let at' := fun (x : PCell) => ran (exec (.litx 0 0 3) (opsOn State.reset [x]))
    ((at' litCell).stk 0 .M false).res = [{ PCell.of 2563 with isK := true }] ∧
      ((at' (PCell.of 5)).stk 0 .M false).res = [PCell.of 2563] ∧
      litxFault [{ litCell with isK := false }] = some { cause := 0x0D, sub := 0, addr := 0 } ∧
      litxFault [{ litCell with isK := false, par := 0 }] = some { cause := 0x10, sub := 1, addr := 0 } := by decide +kernel
/-- A negative depth (R233). -/
def sunk (s : State) : State := s.setStk 0 (curLevel s 0) false { s.stk 0 (curLevel s 0) false with base := 0x100, sp := 0, res := [] }
/-- LIT at a negative depth pops nothing (R236). -/
theorem test_LiteralResults_sunk : curDepth (sunk State.reset) 0 false < 0 ∧ romRuns 0 0 1 [] (sunk State.reset) = true := by decide
/-- Gate 5 from T, and what the caller's stack holds. -/
def gateAt (a b : Cell) (xs : List PCell) : State := opsOn { teeState with gates := [(5, { enta := a, entb := b })] } xs
/-- The gate runs to its checks, and raises a fault. -/
def gateFails (s : State) (c : BitVec 6) (n : BitVec 4) (a : BitVec 36) : Bool :=
  romRuns 0 0 0 [] s && decide (((ran (exec (.gate 0 0 5) s)).thr 0).xrecM = ((raiseExc 0 { cause := c, sub := n, addr := a } (beginWord 0 s)).thr 0).xrecM)
/-- The checks of GATE, one after another: an invalid entry, a caller that it does not name, a target no higher than the caller, too few
arguments and a negative depth, a pointer out of the window, one poisoned, and a target's stack without room. -/
theorem test_GateFaults : gateFails (gateAt 0 0 []) 9 0 0 = true ∧ gateFails (gateAt 0xC50000012345 0 []) 9 1 0 = true ∧
    gateFails (gateAt 0x850000012345 0x100000000000 []) 9 2 0 = true ∧ gateFails (gateAt 0xC50000012345 0x100000000000 []) 9 3 0 = true ∧
    gateFails (sunk (gateAt 0xC10000012345 0x100000000000 [])) 9 3 0 = true ∧
    gateFails (gateAt 0xC50200012345 0x100000000000 [PCell.of 9]) 9 4 9 = true ∧
    gateFails (gateAt 0xC50200012345 0x100000000000 [{ PCell.of 9 with poison := 1 }]) 0x10 1 0 = true ∧
    gateFails (gateAt 0xC50000012345 0x10000FFFC000 [PCell.of 9]) 9 5 0 = true := by decide +kernel
/-- The checks of GRET: no linkage, a frame, too few results. -/
theorem test_GateFaults_gret :
    let s := fun (v : Bool) (n : BitVec 2) (f : BitVec 13) => State.reset.modArch 0 fun a => a.setGlink .M { valid := v, caller := .T, nres := n, frames := f, gate := 5, rpc := 0x100 }
    let fails := fun (x : State) (n : BitVec 4) => decide (((ran (exec (.gret 0 0) x)).thr 0).xrecM = ((raiseExc 0 { cause := 9, sub := n, addr := 0 } (beginWord 0 x)).thr 0).xrecM)
    romRuns 0 0 0 [] State.reset = true ∧ fails (s false 0 0) 6 = true ∧ fails (s true 0 1) 7 = true ∧ fails (s true 1 0) 8 = true := by decide +kernel
/-- A GRET from M to T leaves S empty too (R236). -/
theorem test_gret_empties : let s := inGate.setStk 0 .S false { inGate.stk 0 .S false with res := [PCell.of 1] }
    ((ran (exec (.gret 0 0) s)).stk 0 .S false).res = [] ∧ curLevel (ran (exec (.gret 0 0) s)) 0 = .T ∧
      ((ran (exec (.gret 0 0) s)).stk 0 .T false).res = [PCell.of 9] := by decide +kernel

/-- The tile where the next cycle of the time keeper completes a core cycle and a tick. -/
def cycling (s : State) : State := { s with tk := { s.tk with coreAcc := 4, aonAcc := 46811 } }
/-- No thread has a word in flight. -/
def noneInFlight (s : State) : Bool := threadIds.all fun u => decide ((s.thr u).pend = .none)
theorem noFlush_of {s : State} (h : noneInFlight s = true) (u : ThreadId) (n : Nat) : (s.thr u).pend ≠ .flush n := by
  have := List.all_eq_true.mp h u (List.mem_finRange u)
  rw [of_decide_eq_true this]
  intro e
  cases e
theorem test_cycling : let s := cycling State.reset
    s.boot = .run ∧ s.frozen = false ∧ s.pwr.rest = .run ∧ clkDiv s.profile.clk ≤ s.tk.coreAcc + 2 ∧ 46875 ≤ s.tk.aonAcc + 64 ∧
      s.tk.load ≠ some 0 ∧ noneInFlight s = true := by decide +kernel
/-- A FLUSH at its first set and at its last: the line of that set goes, the other stays. -/
theorem test_PortCycles_flush :
    let at' := fun (a : Nat) => ({ addr := a, bytes := [] } : DLine)
    let s := fun (n : Nat) => cycling ((inFlight (.flush n) State.reset).modCor 0 fun k => { k with dlines := [at' 0x1E000000, at' 0x1E0017D0] })
    let u := fun (n : Nat) => ran (exec .timeKeeperCycle (s n))
    mayWake (s 0) 0 = true ∧ ((s 0).thr 0).robPar = false ∧ ((s 0).thr 0).inj = none ∧ pcHits (s 0) 0 = 0 ∧
      ((u 0).cor 0).dlines = [at' 0x1E0017D0] ∧ ((u 0).thr 0).pend = .flush 1 ∧
      ((u 127).cor 0).dlines = [at' 0x1E000000] ∧ ((u 127).thr 0).pend = .none := by decide +kernel
/-- A request that the fabric has taken before one that it has not; a CAS6 at its port, one that is taken, and a customer request. -/
theorem test_PortCycles : let a : FabReq := { tag := 9, we := false, addr := 16, len := 48, wdata := [], owner := 0, peek := false, use := .load 0, taken := true }
    let b := { a with tag := 3, taken := false }
    let q : SemReq := { thread := 0, addr := 4, exp := 0, new := 1, owner := 0, group := 0 }
    let c : CustReq := { f := 0x38, id := 0x80, a := 1, b := 2, c := 3 }
    let s := fun (p : Pend) => cycling { inFlight p State.reset with
        fab := { State.reset.fab with out := [a, b] }, ports := { State.reset.ports with semReq := [q], chReq := some c } }
    (s .none).fabPort = some b ∧ ((s (.cas6 0x20000004 .offered)).thr q.thread).pend = .cas6 0x20000004 .offered ∧
      ((s .none).thr 0).semTimeout ≠ 0 ∧ ((s (.cas6 4 (.taken (some 1) false))).thr 0).pend = .cas6 4 (.taken (some 1) false) ∧
      c.id.toNat % 128 = 0 ∧ ((s (.cust c .offered)).thr 0).pend = .cust c .offered := by decide +kernel

/-- Core 0 with one comparator for thread 0, at its last place. -/
def comparing (a b : Cell) (s : State) : State := s.modCor 0 fun k =>
  { k with cmpa := List.replicate 7 0 ++ [a.setWidth 36], cmpb := List.replicate 7 0 ++ [b] }
/-- BKPT with BRKHALT and a debugger, and a PC comparator at the reset word with either ACT. -/
theorem test_HaltingWords : let s := attachedState.modCor 0 fun k => { k with brkhalt := true }
    let c := fun (b : Cell) (x : State) => comparing 0xFF000 b x
    romRuns 0 0 0 [] s = true ∧ (s.cor 0).brkhalt = true ∧ s.dbg.attached = true ∧ (ran (exec (.bkpt 0 0) s)).dbg.cause = 1 ∧
      (c 0x9010000FFFFF attachedState).dbg.attached = true ∧ canIssue (c 0x9010000FFFFF attachedState) 0 = true ∧
      pcHits (beginWord 0 (c 0x9010000FFFFF attachedState)) 0 = 0x80 ∧ ((c 0x9010000FFFFF attachedState).thr 0).skip = false ∧
      (ran (exec (.lit 0 0 7) (c 0x9010000FFFFF attachedState))).dbg.cause = 2 ∧
      (ran (exec (.lit 0 0 7) (c 0x9010000FFFFF State.reset))).dbg.halting = false ∧
      ((ran (exec (.lit 0 0 7) (c 0x9010000FFFFF State.reset))).cor 0).csHit = 0x80 := by decide +kernel
theorem test_HaltingWords_fetch : ∃ w, threadFetch (beginWord 0 (comparing 0xFF000 0x9010000FFFFF attachedState)) 0 0xFF000 =
    (.word w, beginWord 0 (comparing 0xFF000 0x9010000FFFFF attachedState)) := ⟨_, rfl⟩
/-- A comparator of loads and one of stores at the last byte that each accesses. -/
theorem test_HaltingWords_data : let s := fun (b : Cell) => comparing 0x1005 b (bare [0x1000, 9])
    romRuns 0 1 1 (cellsOf [0x1000]) (s 0xA01FFFFFFFFF) = true ∧ romRuns 0 2 0 (cellsOf [0x1000, 9]) (s 0xC01FFFFFFFFF) = true ∧
      dataHits (beginWord 0 (s 0xA01FFFFFFFFF)) 0 false 0x1000 6 = 0x80 ∧ dataHits (beginWord 0 (s 0xA01FFFFFFFFF)) 0 true 0x1000 6 = 0 ∧
      dataHits (beginWord 0 (s 0xC01FFFFFFFFF)) 0 true 0x1000 6 = 0x80 ∧ dataHits (beginWord 0 (s 0xC01FFFFFFFFF)) 0 true 0x1006 6 = 0 ∧
      Watching ((s 0xA01FFFFFFFFF).cor 0) 0 [1, 3] 7 ∧ (match checkAccess (beginWord 0 (s 0)) 0 (accLevel (s 0) 0) .load 0x1000 6 0 with
        | .ok r => decide (r = .own)
        | .error _ => false) = true := ⟨by decide, by decide, by decide, by decide, by decide, by decide, ⟨by decide, by decide, by decide⟩, by decide⟩

set_option maxRecDepth 20000 in
/-- The profile that the keep store of the reset state holds stands; from one whose first byte cannot be read none
does. -/
theorem test_FreshTile_profile : let cell := fun (i : Nat) => (profileCell State.reset 0 i).getD 0
    ProfileStands 0 (profileOf cell) State.reset := by
  refine ⟨_, ?_, by decide +kernel, by decide +kernel, by decide +kernel, by decide +kernel, rfl, by decide +kernel, by decide +kernel, by decide +kernel,
    by decide +kernel⟩
  decide +kernel
theorem test_FreshTile_fallback (x : Profile) : ¬ProfileStands 3 x { State.reset with mem := [(0xF0001500, 0x2003)] } := by
  rintro ⟨cell, h, -⟩
  have h0 := h 0 (by decide)
  have e : (match peekSpan { State.reset with mem := [(0xF0001500, 0x2003)] } .normal (0xF0000C00 + 0x300 * (3 : BitVec 2).toNat + 6 * 0) 6 with
      | .ok _ => true
      | _ => false) = false := by decide +kernel
  rw [h0] at e
  cases e
/-- The first and the last thread of a core in a template of 2 and 1 cells from byte 0x10, and one that is cut at the end of the scratchpad. -/
theorem test_FreshTile_areas : let c : Cell := BitVec.ofNat 48 (0x10 * 2 ^ 31 + 2 * 2 ^ 20 + 1 * 2 ^ 9)
    templateAreas c 8 = [0x10, 0x1C, 0x1C, 0x22] ∧ templateAreas c 15 = [0x8E, 0x9A, 0x9A, 0xA0] ∧
      templateAreas (BitVec.ofNat 48 (0x17FFE * 2 ^ 31 + 2 * 2 ^ 20)) 0 = [0x17FFE, 0x18000, 0x18000, 0x18000] := by decide

/-- The acknowledgement of a tile reset's OWNER_RESET, with a boot block in the keep store. -/
def booting (bytes : List Byte) (st : BitVec 3) : State :=
  { State.reset with
    boot := .ackWait 0, ownWait := some .tile, ownq := [], lc := { State.reset.lc with stateOut := st }
    mem := (List.range bytes.length).map fun j => (0xF0001800 + j, encByte (bytes.getD j 0)) }
/-- A boot block of 24 words at host offset 0x30, to word 0x10000. -/
def blockCells : List Cell := [0xB0B710000030, BitVec.ofNat 48 (24 * 2 ^ 20 + 0x10000), 0x10000, 0]
theorem test_BootRom : let s := booting (blockCells.flatMap cellBytes) 0
    s.ownWait = some .tile ∧ s.ownq = [] ∧ s.boot = .ackWait 0 ∧ Quiet s ∧ s.frozen = false ∧ (s.dbg.rsthalt && s.dbg.attached) = false ∧
      AtEntry 0 0 s ∧ (∀ j < 24, rawByte s .normal (0xF0001800 + j) = encByte ((blockCells.flatMap cellBytes).getD j 0)) ∧ s.lc.stateOut ≠ 4 ∧
      (freeTag s.fab).isSome = true :=
  ⟨rfl, rfl, rfl, quiet_of (by decide) (by decide) (by decide), by decide, by decide, ⟨by decide, by decide, by decide⟩, by decide +kernel,
    by decide, by decide⟩
theorem test_BootRom_asks : ((ran (exec (.ownerResetAck true) (booting (blockCells.flatMap cellBytes) 0))).fab.out.map fun q => (q.addr, q.len, q.use)) =
    [(0x30, 48, .rom 0)] := by decide +kernel
/-- A block that fails its checks, and the life cycle SCRAP. -/
theorem test_BootRom_fails : let txd := fun (s : State) => ((ran (exec (.ownerResetAck true) s)).cor 0).txd
    txd (booting (List.replicate 24 0) 0) = 0x0B0000000001 ∧
      txd (booting [] 4) = 0x0B0000000005 := by decide +kernel
/-- The boot thread's last read, with another thread that waits. -/
def copying (b : BootBlock) (st : BitVec 3) : State :=
  let q : FabReq := { tag := 9, we := false, addr := 48, len := 48, wdata := [], owner := 0, peek := false, use := .rom 0, taken := true }
  let s := { (opsOn State.reset (cellsOf [0, 0])).modThr 0 fun th => { th with pend := .rom (.copies [1] b [] true) } with
    fab := { State.reset.fab with out := [q] }, lc := { State.reset.lc with stateOut := st } }
  (s.setStk 1 .M false { s.stk 1 .M false with res := cellsOf [0, 0] }).modThr 1 fun th => { th with pend := .wfe { hi := 0x800000000000, lo := 0 } }
set_option exponentiation.threshold 512 in
theorem test_BootRom_copy : let b : BootBlock := { src := 48, nwords := 24, dest := 0x10000, entry := 0x10000, check := crc32cOf (List.replicate 48 0) }
    let s := copying b 0
    (s.thr 0).pend = .rom (.copies [1] b [] true) ∧ (findReq s 9).isSome = true ∧ mayWake s 0 = true ∧
      Quiet { s with threads := s.threads.set 0 { s.thr 0 with pend := .none } } ∧ mayWake s 1 = true ∧ (s.thr 1).robPar = false ∧
      (s.thr 1).inj = none ∧ pcHits s 1 = 0 ∧ 2 ≤ (s.stk 1 (curLevel s 1) false).res.length ∧ residents s 1 false ≤ 16 ∧
      2 * b.nwords ≤ 48 ∧ b.check = crc32cOf ((List.range 48).map fun j => ((0 : BitVec 384).extractLsb' (376 - 8 * j) 8 : Byte)) :=
  ⟨rfl, by decide, by decide, quiet_of (by decide) (by decide) (by decide), by decide, by decide, by decide, by decide, by decide, by decide,
    by decide, rfl⟩
/-- The threads go on at ENTRY; a wrong check and a fabric error. -/
theorem test_BootRom_ends : let b : BootBlock := { src := 48, nwords := 24, dest := 0x10000, entry := 0x12345, check := 680278713 }
    let u := fun (x : BootBlock) (st : BitVec 2) => ran (exec (.fabResponse 9 0 st) (copying x 0))
    ((u b 0).thr 0).arch.pc = 0x12345 ∧ ((u b 0).thr 1).arch.pc = 0x12345 ∧ ((u { b with check := 0 } 0).cor 0).txd = 0x0B0000000002 ∧
      ((u b 1).cor 0).txd = 0x0B0000000004 := by decide +kernel

/-! ### Witnesses: watchdogs, resets, debug, dispatch, walkers -/

/-- A core's watchdog at 1, and at 0 with no tick since its bark. -/
theorem test_Watchdogs : let s := cycling (State.reset.modCor 15 fun k => { k with wdg := { k.wdg with stage := .bite, count := 1, ticked := false } })
    (s.cor 15).enabled = true ∧ (s.cor 15).rest = .run ∧ (s.cor 15).wdg.stage ≠ .off ∧ noneInFlight s = true ∧
      ((ran (exec .timeKeeperCycle s)).cor 15).wdg = { (s.cor 15).wdg with count := 0, ticked := true } ∧
      (let z := (dogAt .bite false).modCor 15 fun k => { k with wdg := { k.wdg with ticked := false } }
       (z.cor 15).wdg.count = 0 ∧ (z.cor 15).wdg.ticked = false ∧ ((watchdogBite 15 State.reset.pins z).cor 15).fenced = false) := by decide +kernel
/-- The tile's own reset, its OWNER_RESET to be acknowledged. -/
theorem test_ResetUnderWay_tile : let s := { State.reset with boot := .ackWait 2 }
    ResetUnderWay (.thread 3 33) s ∧ resetCovers s (.thread 3 33) = true ∧ resetCovers s (.core 0 15) = false :=
  ⟨.inl ⟨2, .inr rfl, by decide⟩, by decide, by decide⟩
/-- A helper word that a selection discards in a halt: the request behind it stays in the queue. -/
theorem test_SelectAndDpc_frozen : let r : HelpReq := { thread := 0, cls := 0, inst := some 0 }
    let s := { inFlight (.helper .hash [1, 2]) haltedState with help := { haltedState.help with detres := false, reqs := [r, { r with thread := 9, inst := none }] } }
    s.dbg.halted = true ∧ s.dbg.stepping = false ∧ (s.thr 0).en = true ∧ (s.thr 0).pend = .helper .hash [1, 2] ∧
      (ran (exec (.debugSelect 0) s)).help.reqs = [{ r with thread := 9, inst := none }] := by decide +kernel
/-- An injected MOVE whose next step meets a fabric error: the byte that a step has written goes back. -/
theorem test_StepAndInject_undo : let q : FabReq := { tag := 9, we := false, addr := 16, len := 6, wdata := [], owner := 0, peek := false, use := .block 0, taken := true }
    let s0 := opsOn haltedState (cellsOf [6, 0x1000, 0x20000010])
    let undo : StepUndo := { bytes := [{ addr := 0x10000005, mem := 7, buf := none, line := none, now := 9 }], edits := none, fills := [], resv := [] }
    let s := { s0.modThr 0 fun th => { th with inj := some true, pend := .block { kind := .move, x := 0x20000010, a := 0x1000, n := 6, buf := [], y := none } } with
        mem := [(0x10000005, 9)], fab := { s0.fab with out := [q] }, dbg := { s0.dbg with injUndo := [undo] } }
    let u := ran (exec (.fabResponse 9 0 2) s)
    s.dbg.halted = true ∧ s.dbg.injWait = none ∧ (s.thr 0).inj = some true ∧ (s.thr 0).robPar = false ∧ findReq s 9 = some q ∧ memoryWf s = true ∧
      u.mem = [(0x10000005, 7)] ∧ u.dbg.istExc = true ∧ (u.thr 0).arch = (s.thr 0).arch := by decide +kernel
/-- An item that is not eligible yet behind a better one stays queued; the heel with its 1,024 entries taken has room only for what it holds. -/
theorem test_ItemDispatch_eligible : let late : Item := { anItem .queued with id := 77, seq := 6, prio := some 7, eligCyc := 3 }
    let s := { fetching { flow5 with free := true } [late, anItem .queued] with fetch := { (fetching { flow5 with free := true } [late, anItem .queued]).fetch with cycle := 2 } }
    fetchRuns s = true ∧ s.fetch.cycle < late.eligCyc ∧ ((ran (exec .slotFill s)).fetch.items.map fun x => decide (x.place = .queued)) = [true, false] := by
  decide +kernel
theorem test_ItemDispatch_heel (xs : List Item) (h : xs = List.replicate 1024 (anItem (.slot 0))) :
    heelHasRoom (fetching flow5 xs) (anItem .queued) = false ∧ heelHasRoom (fetching flow5 xs) (anItem (.slot 0)) = true := by
  have e : (anItem (.slot 0)).heelEntry = true := by decide +kernel
  have hf : xs.filter Item.heelEntry = xs := List.filter_eq_self.mpr fun x hx => by
    rw [h] at hx
    rw [List.eq_of_mem_replicate hx, e]
  have hl : xs.length = 1024 := by rw [h, List.length_replicate]
  have q : (anItem .queued).heelEntry = false := by decide +kernel
  have hi : (fetching flow5 xs).fetch.items = xs := rfl
  simp [heelHasRoom, hi, hf, hl, q, e]
/-- A walker that counts, with one that is not enabled. -/
theorem test_WalkerIntervals : let s := cycling { State.reset with ecc := { State.reset.ecc with enSh := true, enKn := false, rate := 3, left := List.replicate 18 5 } }
    let u := ran (exec .timeKeeperCycle s)
    s.frozen = false ∧ s.ecc.enSh = true ∧ noneInFlight s = true ∧ s.ecc.left.getD 0 0 ≠ 0 ∧ u.ecc.left.getD 0 0 = 4 ∧ u.ecc.left.getD 1 0 = 16 ∧
      (ran (exec (.scrubStep 0) s)).ecc.walk = s.ecc.walk := by decide +kernel
/-- A core that wakes from Doze, its scratchpad powered down, and one whose scratchpad the debugger keeps up. -/
theorem test_WakeEnds_walkers : let s := fun (a : Bool) => { State.reset.modCor 0 fun k => { k with rest := .doze, waking := true } with
        dbg := { State.reset.dbg with attached := a }, ecc := { State.reset.ecc with rate := 4, left := List.replicate 18 5 } }
    spadGone (s false) 0 = true ∧ spadGone (s true) 0 = false ∧ (s false).pwr.rest = .run ∧ ((s false).cor 0).waking = true ∧
      (ran (exec (.wakeCompleted (some 0)) (s false))).ecc.left.getD 2 0 = 16 ∧ (ran (exec (.wakeCompleted (some 0)) (s true))).ecc.left.getD 2 0 = 5 := by
  decide +kernel

/-! ### Witnesses: drains of THR.PRED, faults of transfers, items that leave, flows that are free, held requests -/

/-- Values 0 to n − 1 as cells. -/
def counted (n : Nat) : List PCell := (List.range n).map fun i => PCell.of (BitVec.ofNat 48 i)
/-- Thread 0 at M with cells of T and S resident too, and 10 cells in the spill area of M. -/
def deepStacks : State :=
  let s := (State.reset.setStk 0 .T false { State.reset.stk 0 .T false with res := counted 8 }).setStk 0 .S false { State.reset.stk 0 .S false with res := counted 6 }
  s.setStk 0 .M false { s.stk 0 .M false with sp := (s.stk 0 .M false).base + 60, res := counted 2 }
/-- A word that pops 4 of 12 cells and pushes 4: fills and spills, every depth as it should be (R203, R206). -/
theorem test_WordFrame_deep : ((ensureCur 0 false 4 (beginWord 0 deepStacks)).any fun s1 =>
      let u := wordDone 0 4 (counted 4) s1
      decide ((deepStacks.stk 0 .M false).sp.toNat + 6 * (2 + 4) < 2 ^ 17 ∧ (u.stk 0 .M false).depth = 12 ∧ (u.stk 0 .T false).depth = 8 ∧
        (u.stk 0 .S false).depth = 6 ∧ (u.stk 0 .T false).res.length = 6 ∧ (u.stk 0 .M false).res = counted 4 ∧
        (u.thr 0).arch.pc = (deepStacks.thr 0).arch.pc + 1)) = true := by decide +kernel
/-- A store of 0x0A to THR.PRED of thread 0, with a 5 on its stack. -/
def predStore : SbEntry := storeAt (BitVec.ofNat 36 (RegRef.addr (.thread 0 3))) [0, 0, 0, 0, 0, 0x0A]
def predBuffered : State := (ops [5]).modCor 0 fun k => { k with sb := [predStore] }
theorem test_StoreDrainPred : (∃ rest, storesOf predBuffered 0 = predStore :: rest) ∧ predStore.phase = .waiting ∧ predStore.par = 0 ∧
    predBuffered.boot = .run ∧ spanRegion (some 0) predStore.ea.toNat predStore.bytes.length = some .reg ∧
    regAt (some 0) predStore.ea.toNat = some (.thread 0 3) ∧
    Quiet (regStore (.thread 0) predStore.lvl (.thread 0 3) (bytesCell predStore.bytes) (predBuffered.modCor 0 fun k => { k with sb := k.sb.erase predStore })) :=
  ⟨⟨[], by decide⟩, by decide, by decide, by decide, by decide, by decide, quiet_of (by decide +kernel) (by decide +kernel) (by decide +kernel)⟩
/-- Two words have been at I when the store drains: the guards of both read the old predicates, p1 as the first word leaves it, and the guard
of the third reads the new ones (R201, R226). The word that retires in that cycle is always among them. -/
theorem test_StoreDrainPred_guards : let s := ran (exec (.storeDrain 0 false false 2) predBuffered)
    let s1 := ran (exec (.pinv 0 0 1) s)
    let s2 := ran (exec (.add 0 3) s1)
    (s.thr 0).arch.p3 = true ∧ (s.thr 0).guardPred 3 = false ∧ (s.thr 0).oldPreds = [{ left := 2, p1 := false, p2 := false, p3 := false }] ∧
      (s1.thr 0).oldPreds = [{ left := 1, p1 := true, p2 := false, p3 := false }] ∧ (s1.thr 0).arch.p1 = true ∧
      (s2.thr 0).oldPreds = [] ∧ (s2.thr 0).guardPred 3 = true ∧ (s2.thr 0).arch.pc = 0xFF002 ∧
      ((ran (exec (.storeDrain 0 true) predBuffered)).thr 0).oldPreds.map (·.left) = [1] ∧
      ((ran (exec (.storeDrain 0 false false 20) predBuffered)).thr 0).oldPreds.map (·.left) = [8] := by decide +kernel
/-- A PINV at I before the drain, and a FENCE. -/
theorem test_StoreDrainPred_words : let s := ran (exec (.storeDrain 0 false false 2) predBuffered)
    romRuns 0 0 0 [] s = true ∧ (s.thr 0).inj = none ∧ s.dbg.stepping = false ∧ storesOf (beginWord 0 s) 0 = [] ∧
      ((ran (exec (.fence 0 0) s)).thr 0).oldPreds = [] := by decide +kernel
/-- BR and CALL to word 0x10_0000, and calls with a full return stack. -/
theorem test_ControlTransfers_faults : let far := ops [0x100000]
    let s := (ops [5]).setStk 0 .M true { (ops [5]).stk 0 .M true with hi := ((ops [5]).stk 0 .M true).base }
    let raised := fun (u : State) => ((u.thr 0).xrecM.extractLsb' 38 10, (u.stk 0 .M false).depth)
    romRuns 0 1 0 (cellsOf [0x100000]) far = true ∧ romRuns 0 1 0 (cellsOf [5]) s = true ∧ romRuns 0 0 0 [] s = true ∧
      rsRoom (beginWord 0 s) 0 1 = false ∧ raised (ran (exec (.br 0 0) far)) = (0x030, 1) ∧ raised (ran (exec (.call 0 0) far)) = (0x030, 1) := by
  decide +kernel
/-- An item that holds bookings and edits, current on thread 0, with another in the thread's slot. -/
def bookedItem (m : Bool) : Item := { anItem (.current 0) with
  marked := m, kept := [(1, 2)], edits := [(2, 3)]
  bookW := some { core := some 0, slot := 3, amount := 4 }, bookP := some { core := none, slot := 5, amount := 6 } }
def killing (m : Bool) : State :=
  let s := withItem (bookedItem m) State.reset
  { s.modThr 0 fun th => { th with slot := some 99 } with
    fetch := { s.fetch with items := [bookedItem m, { anItem (.slot 0) with id := 99, seq := 7 }] } }
theorem test_KilledItems : let s := killing false
    romRuns 0 0 0 [] s = true ∧ currentItem (beginWord 0 s) 0 = some (bookedItem false) ∧ (bookedItem false).tag = none ∧
      (∀ x ∈ (beginWord 0 s).fetch.items, x.tag = none) ∧ (beginWord 0 s).fetch.items.countP (fun x => decide (x.id = (bookedItem false).id)) = 1 ∧
      ((beginWord 0 s).thr 0).slot ≠ some (bookedItem false).id ∧ currentItem (beginWord 0 (killing true)) 0 = some (bookedItem true) := by decide +kernel
theorem test_kill_item : let u := fun (m : Bool) => ran (exec (.kill 0 0) (killing m))
    (u false).fetch.items.map (·.place) = [.ready, .queued] ∧ (u false).fetch.items.map (·.action) = [3, 2] ∧
      (u false).fetch.items.map (·.bookW) = [none, none] ∧ (u false).heel.losslog = [{ cause := 1, core := 0, flow := 1, seq := 5 }] ∧ ((u false).src 8).pend = true ∧
      (u true).fetch.items.map (·.action) = [2, 2] ∧ (u true).heel.losslog = [] := by decide +kernel
/-- DONE, DROPW and KILL by the item that holds tag 5: thread 9, parked in TAG for it, goes on with it. -/
theorem test_TaggedVisitEnds : let s := beginWord 0 tagging
    romRuns 0 0 0 [] tagging = true ∧ storesOf s 0 = [] ∧ (s.thr 0).slot = none ∧ s.fetch.items.countP (fun x => decide (x.id = taggedItem.id)) = 1 ∧
      ([Instr.doneW 0 0, .dropw 0 0, .kill 0 0].all fun i => let u := ran (exec i tagging)
        decide ((findItem u 77).map (·.tag) = some (some (5, .held)) ∧ (u.thr 9).pend = .none ∧ (findItem u taggedItem.id).map (·.tag) = some none)) = true := by
  decide +kernel
/-- A FREE flow takes any sequence, a FRESH one takes its node's kind, and a flow of the other kind is REJECTed. -/
theorem test_Descriptors_free : let node := fun (f : Flow) => { fetching f [] with fetch := { (fetching f []).fetch with nodes := [(3, { Node.boot with en := true, cores := 1, ord := .free })] } }
    let u := fun (f : Flow) => ran (exec (.itemDescriptor 0x000100000903 0 0 0) (node f))
    Offers (node flow5) ∧ (node flow5).fetch.admitOn = false ∧ (u flow5).ports.idescSt = 2 ∧ (u { flow5 with free := true }).ports.idescSt = 0 ∧
      ((u { flow5 with free := true }).flow 1).infl = 1 ∧ ((u { flow5 with free := true }).flow 1).nexta = 5 ∧
      (u Flow.boot).ports.idescSt = 0 ∧ ((u Flow.boot).flow 1).free = true ∧ ((u Flow.boot).flow 1).fresh = false :=
  ⟨offers_of (by decide), by decide +kernel⟩
/-- An item with bookings and a granted tag that waits, and thread 9 parked in TAG for it. -/
def waitingTarget (p : Place) : Item := { bookedItem false with place := p, tag := some (5, .granted) }
def cancelling (p : Place) : State :=
  let s := fetching { flow5 with nexta := 6, infl := 1, state := .active } [waitingTarget p, waitingItem]
  let s1 := (s.setStk 9 .M false { s.stk 9 .M false with res := cellsOf [0, 0, 5] }).modThr 9 fun th =>
    { th with cur := some 77, pend := .tag 5 { hi := 0, lo := 0 } }
  let s2 := s1.modThr 0 fun th => { th with slot := if p = .slot 0 then some (waitingTarget p).id else none }
  { s2 with fetch := bookOn (bookOn s2.fetch { core := some 0, slot := 3, amount := 4 }) { core := none, slot := 5, amount := 6 } }
theorem test_WaitingCancels : let s := cancelling (.slot 0)
    Offers s ∧ s.dbg.stepping = false ∧ (s.flow 1).fresh = false ∧ (5 : BitVec 24) ≠ (s.flow 1).nexta ∧ cancelTarget s 1 5 = some (waitingTarget (.slot 0)) ∧
      isCancelled (waitingTarget (.slot 0)) = false ∧ cancelTarget (cancelling .queued) 1 5 = some (waitingTarget .queued) ∧
      mayWake s 9 = true ∧ pcHits s 9 = 0 ∧ residents s 9 false ≤ 16 :=
  ⟨offers_of (by decide +kernel), by decide +kernel⟩
theorem test_cancel_waiting : ([Place.queued, .slot 0].all fun p => let u := ran (exec (.cancel tokenCell 0 0 0) (cancelling p))
    decide ((u.thr 0).slot = none ∧ u.fetch.transfer.sum = 0 ∧ (u.fetch.ledgers.getD 0 []).sum = 0 ∧
      u.fetch.items.map (fun x => (x.place, x.bookW, x.bookP, x.tag)) = [(.hole, none, none, none), (.current 9, none, none, some (5, .held))])) = true := by
  decide +kernel
/-- A FORWARD record of 5 bytes with an edit of the second: a good byte, the edit, a poisoned, an uncorrectable and a cleared one. -/
def forwarded : Item := { anItem .ready with action := 0, taken := true, desc1 := BitVec.ofNat 48 (5 * 2 ^ 21 + 10), kept := [(1, 0xAA)] }
def forwarding : State :=
  { fetching { flow5 with nexta := 6, infl := 1, state := .active } [forwarded] with
    mem := [(0x1050003C, encByte 7), (0x1050003D, encByte 9), (0x1050003E, poisonByte), (0x1050003F, encByte 1 ^^^ 3)] }
theorem test_FrameData : fetchRuns forwarding = true ∧ nextRelease forwarding = some forwarded ∧ editAt forwarded.kept 1 = some 0xAA ∧
    classify (rawByte forwarding .normal 0x1050003C) = .good 7 ∧ classify (rawByte forwarding .normal 0x1050003E) = .poison ∧
    classify (rawByte forwarding .normal 0x1050003F) = .ue ∧ classify (rawByte forwarding .normal 0x10500040) = .clear := by decide +kernel
theorem test_FrameData_sent : let u := ran (exec .releaseRecord forwarding)
    u.ports.edata = [{ nb := 5, last := true, data := [7, 0xAA, 0, 0, 0], err := [false, false, true, true, false] }] ∧
      rawByte u .normal 0x1050003D = encByte 0xAA ∧ u.ecc.uelog.length = 2 := by decide +kernel
/-- Requests at the fabric: a load of thread 0 and one of thread 1, a store of thread 0, and one that the fabric has taken. -/
def requesting : State :=
  let q := fun (tag : BitVec 8) (use : FabUse) (owner : BitVec 17) (taken : Bool) =>
    ({ tag := tag, we := false, addr := 4, len := 6, wdata := [], owner := owner, peek := false, use := use, taken := taken } : FabReq)
  let s := (inFlight (.load { width := 6, signed := false, lr := false, form := .base } 0x20000004 0) State.reset).modCor 0 fun k => { k with dfills := [(0x20000000, some 1), (0x20000030, some 2)] }
  { s with fab := { s.fab with out := [q 1 (.load 0) 0 false, q 2 (.load 1) 1 false, q 3 (.store 0) 0 false, q 4 .orphan 0 true] } }
/-- After a reset of thread 0 its load is withdrawn with its line fill, its store waits for the acknowledgement, and thread 1's load stands at the
port; after a reset of the core none does (R480). -/
theorem test_ThreadReset_requests : let u := ran (exec (.threadReset .whistle 0) requesting)
    let v := ran (exec (.coreReset .whistle 0) requesting)
    requesting.fabPort.map (·.tag) = some 1 ∧ u.fab.out.map (·.tag) = [2, 3, 4] ∧ (u.cor 0).dfills = [(0x20000030, some 2)] ∧
      u.fabPort.map (·.tag) = some 2 ∧ v.fab.out.map (·.tag) = [2, 4] ∧ v.fabPort.map (·.tag) = none ∧ ownerHeld u 0 = true ∧ ownerHeld u 1 = false ∧
      ((fabCycle true (reqHeld u) u.fab).out.map fun r => (r.tag, r.taken)) = [(2, true), (3, false), (4, true)] ∧
      (({ u with ownq := [], fab := fabCycle true (reqHeld u) u.fab } : State).fabPort.map (·.tag)) = some 3 := by decide +kernel
/-- An interrupt during a commanded load (R273); a RETI that chains keeps the hold of the frame's source, and one that pops releases it (R274). -/
theorem test_recognition : mayRecognise { State.reset with pwr := { State.reset.pwr with loading := true } } 0 = true ∧
    (let s := chained.setSrc 0 { chained.src 0 with held := some 0 }
     let u := ran (exec (.reti 0 0) s)
     (u.src 0).held = some 0 ∧ (u.src 64).held = some 0 ∧
       ((ran (exec (.reti 0 0) (s.setSrc 64 Src.boot))).src 0).held = none) := by decide +kernel

end Sys2Proof.Tests
end

/-! PROOFS. The arithmetic, logic and predicate words: what running each one comes to, and the values that its result has. -/

section
/-! ### The shared shapes of words without a transfer -/

namespace Sys2Proof.Proofs

open Sys2Proof Sys2Proof.Machine Sys2Proof.Laws

variable {t : ThreadId} {g : Guard} {s s1 : State}

/-- A change of a thread to itself changes nothing. -/
theorem modThr_of_fixed {f : Thread → Thread} (h : f (s.thr t) = s.thr t) : s.modThr t f = s := by
  unfold State.modThr
  rw [h]
  simp [State.setThr, State.thr]

/-- A plain word whose body answers a next state on its operands retires from that state. -/
theorem runWord_plain_next {pops pushes : Nat} {body : List PCell → State → WRes} {cells : List PCell} {u : State}
    (h : Runs t g pops pushes cells s s1) (hc : Clean cells) (hb : body cells s1 = .next u) :
    runWord t g (WordSem.plain pops pushes body) s = retireNext t u := by
  rw [runWord_plain h hc, hb]
  rfl

/-- A word that issues comes to its own phases, whatever they give. -/
theorem runWord_of_issues {sem : WordSem} (h : Issues t s) :
    runWord t g sem s = finishWord t sem.transfer (wordPhase t g sem (beginWord t s)) := by
  unfold runWord
  rw [if_pos h.may]
  unfold doWord
  rw [fetchPhase_of_issues h]

/-- A word with an illegal-opcode subcode raises it at its own address, whatever its guard (R59, R73). -/
theorem runWord_illegal {sem : WordSem} {sub : BitVec 4} (h : Issues t s) (hi : sem.illegal = some sub) :
    runWord t g sem s =
      raiseExc t { cause := 1, sub := sub, addr := (s.thr t).arch.pc.setWidth 36 } (beginWord t s) := by
  rw [runWord_of_issues h]
  unfold wordPhase illegalExc
  simp only [hi, beginWord_arch, finishWord]

end Sys2Proof.Proofs
end

section
/-! ### Integer arithmetic (R95, R96, R98) -/

namespace Sys2Proof.Proofs

open Sys2Proof Sys2Proof.Machine Sys2Proof.Laws

variable {t : ThreadId} {g : Guard} {s s1 : State} {a b : PCell}

/-- Where nothing overflows, or a store to THR.ARITH meets the retirement, OV stays. -/
theorem withOv_of_kept {ov : Bool} (h : (ov && !(s.thr t).arithMet) = false) : withOv t ov s = s :=
  modThr_of_fixed (by simp only [h, Bool.or_false])

/-- The model sets OV as the claim says: not where a store to THR.ARITH meets the retirement (R43). -/
theorem setOv_eq_withOv (ov : Bool) : setOv t ov s = withOv t ov s := by
  cases ov with
  | false => exact (withOv_of_kept (Bool.false_and _)).symm
  | true =>
    cases hm : (s.thr t).arithMet with
    | true =>
      rw [withOv_of_kept (by simp [hm])]
      simp [setOv, modFlags, hm]
    | false => simp [setOv, modFlags, withOv, State.modThr, hm]

/-- What a word that replaces n operands by the exact result v leaves (R37). -/
def intDone (t : ThreadId) (n : Nat) (v : Int) (s : State) : State :=
  retireNext t (withOv t (decide (v < -(2 ^ 47) ∨ 2 ^ 47 ≤ v)) (curReplace t false n [PCell.of (BitVec.ofInt 48 v)] s))

/-- An integer result is the low 48 bits in place of the operands, with OV where the exact result leaves the range. -/
theorem intResult_eq (n : Nat) (v : Int) : intResult t n v s =
    .next (withOv t (decide (v < -(2 ^ 47) ∨ 2 ^ 47 ≤ v)) (curReplace t false n [PCell.of (BitVec.ofInt 48 v)] s)) :=
  congrArg WRes.next (setOv_eq_withOv _)

theorem runWord_arith2 (f : Cell → Cell → Int) (h : Runs t g 2 1 [b, a] s s1) (hc : Clean [b, a]) :
    runWord t g (arith2 t f) s = intDone t 2 (f a.val b.val) s1 := runWord_plain_next h hc (intResult_eq ..)

theorem runWord_arith1 (f : Cell → Int) (h : Runs t g 1 1 [a] s s1) (hc : Clean [a]) :
    runWord t g (arith1 t f) s = intDone t 1 (f a.val) s1 := runWord_plain_next h hc (intResult_eq ..)

/-- The product of two cells lies well inside the signed range of a double. -/
theorem cell_mul_bounds (x y : Cell) : -(2 ^ 95) ≤ x.toInt * y.toInt ∧ x.toInt * y.toInt < 2 ^ 95 := by
  have magnitude (z : Cell) : z.toInt.natAbs ≤ 2 ^ 47 := by
    have := BitVec.le_toInt z
    have := BitVec.toInt_lt (x := z)
    omega
  have h : (x.toInt * y.toInt).natAbs ≤ 2 ^ 47 * 2 ^ 47 := by
    rw [Int.natAbs_mul]
    exact Nat.mul_le_mul (magnitude x) (magnitude y)
  omega

/-- The two cells of a double in range spell it: the high one signed, the low one unsigned (R96). -/
theorem cell_halves {p : Int} (h : -(2 ^ 95) ≤ p ∧ p < 2 ^ 95) :
    (cellOfInt (p / 2 ^ 48)).toInt * 2 ^ 48 + (cellOfInt p).toNat = p := by
  have hi : (cellOfInt (p / 2 ^ 48)).toInt = p / 2 ^ 48 :=
    BitVec.toInt_ofInt_eq_self (by decide) (by omega) (by omega)
  have lo : ((cellOfInt p).toNat : Int) = p % 2 ^ 48 := by
    unfold cellOfInt
    rw [BitVec.toNat_ofInt]
    omega
  rw [hi, lo]
  omega

/-- MULD delivers the two cells of the exact product, high cell on top, and sets no flag. -/
theorem runWord_muld (h : Runs t g 2 2 [b, a] s s1) (hc : Clean [b, a]) :
    runWord t g (semMuld t) s = wordDone t 2 [PCell.of (cellOfInt (a.val.toInt * b.val.toInt / 2 ^ 48)),
      PCell.of (cellOfInt (a.val.toInt * b.val.toInt))] s1 := runWord_plain_next h hc rfl

/-- Settles O11: each word is one of the two shapes of integer words, with the exact result of R95 or R98. -/
theorem arithmeticResults : Obligations.ArithmeticResults := by
  intro t g a b s s1 one
  have two (f : Cell → Cell → Int) (h : Runs t g 2 1 [b, a] s s1) (hc : Clean [b, a]) :=
    congrArg (Host.Outcome.next (φ := Fault) (ρ := Refusal)) (runWord_arith2 f h hc)
  have single (f : Cell → Int) (h : Runs t g 1 1 [a] s s1) (hc : Clean [a]) :=
    congrArg (Host.Outcome.next (φ := Fault) (ρ := Refusal)) (runWord_arith1 f h hc)
  rw [← abs_eq_max_neg, Int.abs_eq_natAbs]
  exact ⟨two _, two _, two _, single _, single _, fun h hc =>
    ⟨_, _, cell_halves (cell_mul_bounds a.val b.val), congrArg Host.Outcome.next (runWord_muld h hc)⟩⟩

end Sys2Proof.Proofs
end

section
/-! ### Logic, shifts, bit counts and fields (R100 to R104) -/

namespace Sys2Proof.Proofs

open Sys2Proof Sys2Proof.Machine Sys2Proof.Laws

variable {t : ThreadId} {g : Guard} {s s1 : State} {a b : PCell}

theorem runWord_logic2 (f : Cell → Cell → Cell) (h : Runs t g 2 1 [b, a] s s1) (hc : Clean [b, a]) :
    runWord t g (logic2 t f) s = wordDone t 2 [PCell.of (f a.val b.val)] s1 := runWord_plain_next h hc rfl

theorem runWord_logic1 (f : Cell → Cell) (h : Runs t g 1 1 [a] s s1) (hc : Clean [a]) :
    runWord t g (logic1 t f) s = wordDone t 1 [PCell.of (f a.val)] s1 := runWord_plain_next h hc rfl

theorem runWord_ext {len pos : PCell} (h : Runs t g 3 1 [len, pos, a] s s1) (hc : Clean [len, pos, a]) :
    runWord t g (semExt t) s = wordDone t 3 [PCell.of (extField a.val pos.val len.val)] s1 := runWord_plain_next h hc rfl

theorem runWord_ins {len pos f : PCell} (h : Runs t g 4 1 [len, pos, f, a] s s1) (hc : Clean [len, pos, f, a]) :
    runWord t g (semIns t) s = wordDone t 4 [PCell.of (insField a.val f.val pos.val len.val)] s1 := runWord_plain_next h hc rfl

/-! #### Shifts (R101) -/

/-- A left shift by a count cut at 48 multiplies below 48, and leaves 0 from 48 on. -/
theorem shiftLeft_cut (x : Cell) (n : Nat) :
    x <<< min n 48 = BitVec.ofNat 48 (if n < 48 then x.toNat * 2 ^ n else 0) := by
  split
  next h =>
    rw [min_eq_left h.le]
    exact BitVec.eq_of_toNat_eq (by rw [BitVec.toNat_shiftLeft, BitVec.toNat_ofNat, Nat.shiftLeft_eq])
  next h => rw [min_eq_right (not_lt.mp h), BitVec.shiftLeft_eq_zero le_rfl]

/-- A right shift by a count cut at 48 divides below 48, and leaves 0 from 48 on. -/
theorem ushiftRight_cut (x : Cell) (n : Nat) :
    x >>> min n 48 = BitVec.ofNat 48 (if n < 48 then x.toNat / 2 ^ n else 0) := by
  split
  next h =>
    have hlt : x.toNat / 2 ^ n < 2 ^ 48 := (Nat.div_le_self ..).trans_lt x.isLt
    rw [min_eq_left h.le]
    exact BitVec.eq_of_toNat_eq
      (by rw [BitVec.toNat_ushiftRight, BitVec.toNat_ofNat, Nat.shiftRight_eq_div_pow, Nat.mod_eq_of_lt hlt])
  next h => rw [min_eq_right (not_lt.mp h), BitVec.ushiftRight_eq_zero le_rfl]

/-- An arithmetic right shift by a count cut at 48 divides, rounding down, below 48, and leaves copies of the sign from 48 on. -/
theorem sshiftRight_cut (x : Cell) (n : Nat) : x.sshiftRight (min n 48) =
    BitVec.ofInt 48 (if n < 48 then x.toInt / 2 ^ n else if x.toInt < 0 then -1 else 0) := by
  have ofDiv (m : Nat) : x.sshiftRight m = BitVec.ofInt 48 (x.toInt / 2 ^ m) := by
    unfold BitVec.sshiftRight
    rw [Int.shiftRight_eq_div_pow]
    norm_cast
  rw [ofDiv]
  by_cases h : n < 48
  · rw [min_eq_left h.le, if_pos h]
  · have := BitVec.le_toInt x
    have := BitVec.toInt_lt (x := x)
    rw [min_eq_right (not_lt.mp h), if_neg h]
    congr 1
    omega

/-- A rotation carries bit i to bit i + n, counted modulo 48. -/
theorem rotateLeft_bit (x : Cell) (n : Nat) {i : Nat} (hi : i < 48) :
    (x.rotateLeft (n % 48)).getLsbD ((i + n) % 48) = x.getLsbD i := by
  rw [BitVec.getLsbD_rotateLeft, Nat.mod_mod, Bool.cond_decide]
  split
  next h => congr 1; omega
  next h =>
    have h1 : (i + n) % 48 < 48 := by omega
    have h2 : (i + n) % 48 - n % 48 = i := by omega
    rw [h2, decide_eq_true h1, Bool.true_and]

/-! #### Bit counts (R102) -/

/-- The leading zeros of a cell: its bits above them are 0, and the next one is 1. -/
theorem leadingZeros_spec (x : Cell) : leadingZeros x ≤ 48 ∧ x.toNat < 2 ^ (48 - leadingZeros x) ∧
    (leadingZeros x < 48 → 2 ^ (47 - leadingZeros x) ≤ x.toNat) := by
  have below {z : Nat} (hz : ∀ j < z, x.getLsbD (47 - j) = false) : x.toNat < 2 ^ (48 - z) := by
    refine Nat.lt_pow_two_of_testBit _ fun i hi => ?_
    by_cases h : i < 48
    · have := hz (47 - i) (by omega)
      rwa [show 47 - (47 - i) = i by omega] at this
    · exact BitVec.getLsbD_of_ge x i (not_lt.mp h)
  unfold leadingZeros
  cases hf : (List.range 48).findIdx? fun i => x.getLsbD (47 - i) with
  | none =>
    have hz : ∀ j < 48, x.getLsbD (47 - j) = false := by simpa using hf
    exact ⟨le_rfl, below hz, fun h => absurd h (lt_irrefl 48)⟩
  | some z =>
    obtain ⟨hz, hone, hzero⟩ := List.findIdx?_eq_some_iff_getElem.mp hf
    simp only [List.length_range] at hz
    simp only [List.getElem_range, Bool.not_eq_true] at hone hzero
    exact ⟨hz.le, below hzero, fun _ => Nat.ge_two_pow_of_testBit hone⟩

/-- The model's count of ones is the number of set bits. -/
theorem popCount_cell (x : Cell) : popCount 48 x.toNat = (List.range 48).countP x.getLsbD :=
  List.countP_eq_length_filter.symm

/-! #### Byte swaps (R103) -/

/-- A last byte is the lowest one. -/
theorem bytesNat_snoc (bs : List Byte) (x : Byte) : bytesNat (bs ++ [x]) = bytesNat bs * 256 + x.toNat := by
  simp [bytesNat]

/-- Byte j, from the low end, of the number that bytes spell. -/
theorem bytesNat_byte (bs : List Byte) (j : Nat) : bytesNat bs / 2 ^ (8 * j) % 2 ^ 8 = (bs.reverse[j]?.getD 0).toNat := by
  induction bs using List.reverseRecOn generalizing j with
  | nil => simp [bytesNat]
  | append_singleton bs b ih =>
    have hb := b.isLt
    rw [bytesNat_snoc]
    cases j with
    | zero =>
      have hlow : (bytesNat bs * 256 + b.toNat) % 256 = b.toNat := by omega
      simpa using hlow
    | succ j =>
      have hdiv : (bytesNat bs * 256 + b.toNat) / 2 ^ (8 * (j + 1)) = bytesNat bs / 2 ^ (8 * j) := by
        rw [show 2 ^ (8 * (j + 1)) = 256 * 2 ^ (8 * j) by ring, ← Nat.div_div_eq_div_mul]
        congr 1
        omega
      rw [hdiv, ih j]
      simp

/-- Bytes spell a number of no more bytes. -/
theorem bytesNat_lt (bs : List Byte) : bytesNat bs < 2 ^ (8 * bs.length) := by
  induction bs using List.reverseRecOn with
  | nil => simp [bytesNat]
  | append_singleton bs b ih =>
    have hb := b.isLt
    rw [bytesNat_snoc, List.length_append, List.length_singleton,
      show 2 ^ (8 * (bs.length + 1)) = 256 * 2 ^ (8 * bs.length) by ring]
    omega

/-- Byte j, from the low end, of the cell that up to six bytes spell. -/
theorem bytesCell_byte {bs : List Byte} (h : bs.length ≤ 6) (j : Nat) :
    (bytesCell bs).extractLsb' (8 * j) 8 = bs.reverse[j]?.getD 0 := by
  have hlt : bytesNat bs < 2 ^ 48 :=
    (bytesNat_lt bs).trans_le (Nat.pow_le_pow_right (by decide) (by omega))
  apply BitVec.eq_of_toNat_eq
  rw [BitVec.extractLsb'_toNat, Nat.shiftRight_eq_div_pow, bytesCell, BitVec.toNat_ofNat, Nat.mod_eq_of_lt hlt, bytesNat_byte]

/-- The bytes of a cell, from the high end. -/
theorem cellBytes_getElem? (x : Cell) (i : Nat) :
    (cellBytes x)[i]? = if i < 6 then some (x.extractLsb' (8 * (5 - i)) 8) else none := by
  unfold cellBytes natBytes
  rw [List.getElem?_map]
  split
  next h => rw [List.getElem?_range h]; rfl
  next h => rw [List.getElem?_eq_none (by simpa using h)]; rfl

/-- Byte j of a swap of n bytes is byte n − 1 − j, and those above are clear. -/
theorem byteSwap_byte {n : Nat} (hn : n ≤ 6) (x : Cell) (j : Nat) :
    (byteSwap n x).extractLsb' (8 * j) 8 = if j < n then x.extractLsb' (8 * (n - 1 - j)) 8 else 0#8 := by
  unfold byteSwap
  rw [bytesCell_byte (by simp [cellBytes, natBytes]), List.reverse_reverse, List.getElem?_drop, cellBytes_getElem?]
  split
  next h => rw [if_pos (by omega), show 5 - (6 - n + j) = n - 1 - j by omega]; rfl
  next h => rw [if_neg (by omega)]; rfl

/-! #### Bit fields (R104) -/

/-- The low l bits of a mask are set. -/
theorem lowOnes_bit (l : Nat) {i : Nat} (hi : i < 48) : (lowOnes l).getLsbD i = decide (i < l) := by
  rw [lowOnes, BitVec.getLsbD_ofNat, Nat.testBit_two_pow_sub_one, decide_eq_true hi, Bool.true_and]

/-- EXT gives the bits of the field, those past the top of the cell as 0. -/
theorem extField_bit (x pos len : Cell) {i : Nat} (hi : i < 48) :
    (extField x pos len).getLsbD i = (decide (i < len.toNat) && x.getLsbD (i + pos.toNat)) := by
  unfold extField
  rw [BitVec.getLsbD_and, BitVec.getLsbD_ushiftRight, lowOnes_bit _ hi, Bool.and_comm]
  by_cases h : i + pos.toNat < 48
  · have hpos : fieldPos pos = pos.toNat := min_eq_left (by omega)
    have hlen : i < fieldLen pos len ↔ i < len.toNat := by unfold fieldLen; omega
    rw [hpos, decide_eq_decide.mpr hlen, Nat.add_comm]
  · have hlen : ¬i < fieldLen pos len := by unfold fieldLen fieldPos; omega
    rw [BitVec.getLsbD_of_ge x (i + pos.toNat) (not_lt.mp h), decide_eq_false hlen, Bool.false_and, Bool.and_false]

/-- INS replaces the bits of the field that the cell has. -/
theorem insField_bit (x f pos len : Cell) {i : Nat} (hi : i < 48) : (insField x f pos len).getLsbD i =
    if pos.toNat ≤ i ∧ i < pos.toNat + len.toNat then f.getLsbD (i - pos.toNat) else x.getLsbD i := by
  have mask : (lowOnes (fieldLen pos len) <<< fieldPos pos).getLsbD i =
      decide (pos.toNat ≤ i ∧ i < pos.toNat + len.toNat) := by
    rw [BitVec.getLsbD_shiftLeft, lowOnes_bit _ (by omega)]
    unfold fieldLen fieldPos
    rw [decide_eq_true hi, Bool.true_and, ← decide_not, ← Bool.decide_and]
    exact decide_eq_decide.mpr (by omega)
  unfold insField
  rw [BitVec.getLsbD_or, BitVec.getLsbD_and, BitVec.getLsbD_and, BitVec.getLsbD_not, mask]
  split
  next h =>
    have hp : fieldPos pos = pos.toNat := min_eq_left (by omega)
    rw [decide_eq_true h, BitVec.getLsbD_shiftLeft, hp]
    simp [hi, h.1]
  next h => simp [decide_eq_false h, hi]

/-! #### The claims -/

theorem logicResults : Claims.LogicResults := by
  intro t g a b s s1 two one n
  refine ⟨fun h hc => ?_, fun h hc => ?_⟩
  · have run (f : Cell → Cell → Cell) := congrArg (Host.Outcome.next (φ := Fault) (ρ := Refusal)) (runWord_logic2 f h hc)
    rw [← shiftLeft_cut, ← ushiftRight_cut, ← sshiftRight_cut]
    exact ⟨run _, run _, run _, run _, run _, run _, _, fun _ => rotateLeft_bit a.val n, run _⟩
  · have run (f : Cell → Cell) := congrArg (Host.Outcome.next (φ := Fault) (ρ := Refusal)) (runWord_logic1 f h hc)
    obtain ⟨hle, hlt, hge⟩ := leadingZeros_spec a.val
    rw [← popCount_cell]
    exact ⟨run _, ⟨_, hle, hlt, hge, run _⟩, run _⟩

theorem fieldResults : Claims.FieldResults := by
  intro t g a f pos len s s1
  refine ⟨fun h hc n hn => ?_, fun h hc => ?_, fun h hc => ?_⟩
  · refine ⟨byteSwap n a.val, byteSwap_byte (by omega) a.val, ?_, ?_, ?_, ?_⟩ <;> rintro rfl <;>
      exact congrArg Host.Outcome.next (runWord_logic1 _ h hc)
  · exact ⟨_, fun _ => extField_bit a.val pos.val len.val, congrArg Host.Outcome.next (runWord_ext h hc)⟩
  · exact ⟨_, fun _ => insField_bit a.val f.val pos.val len.val, congrArg Host.Outcome.next (runWord_ins h hc)⟩

/-- Settles O13: the logic words and the field words, each by what its value is bit by bit. -/
theorem logicShiftsAndFields : Obligations.LogicShiftsAndFields := ⟨logicResults, fieldResults⟩

end Sys2Proof.Proofs
end

section
/-! ### Predicates and the FIELD encodings (R106, R107, R73) -/

namespace Sys2Proof.Proofs

open Sys2Proof Sys2Proof.Machine Sys2Proof.Laws

variable {t : ThreadId} {g : Guard} {s s1 : State} {a b : PCell} {cond : BitVec 3} {k : BitVec 2}

/-- A predicate number other than 0 is one of three. -/
theorem pred_cases (hk : k ≠ 0) : k = 1 ∨ k = 2 ∨ k = 3 := by
  revert k
  decide

/-- The model writes a predicate as the claim says. -/
theorem putPred_eq_withPred (hk : k ≠ 0) (v : Bool) : putPred t k v s = withPred t k v s := by
  obtain rfl | rfl | rfl := pred_cases hk <;> rfl

/-- The model's condition is the claim's (R69). -/
theorem condHolds_eq_condTrue (cond : BitVec 3) (x y : Cell) : condHolds cond x y = condTrue cond.toNat x y := by
  unfold condHolds condTrue
  generalize cond.toNat = n
  match n with
  | 0 => exact decide_eq_decide.mpr BitVec.toNat_inj.symm
  | 1 => exact decide_eq_decide.mpr (not_congr BitVec.toNat_inj.symm)
  | 2 => rfl
  | 3 => rfl
  | 4 => rfl
  | _ + 5 => rfl

/-- A word whose reserved field values are illegal runs as a plain word on the others. -/
theorem runWord_legal {pops pushes : Nat} {body : List PCell → State → WRes} {cells : List PCell} {u : State}
    {illegal : Option (BitVec 4)} (hi : illegal = none) (h : Runs t g pops pushes cells s s1) (hc : Clean cells)
    (hb : body cells s1 = .next u) : runWord t g { WordSem.plain pops pushes body with illegal := illegal } s = retireNext t u := by
  subst hi
  exact runWord_plain_next h hc hb

/-- A compare with a legal condition and predicate number writes the comparison, or its complement, and pops both cells. -/
theorem runWord_compare (negate : Bool) (hk : k ≠ 0) (hcond : cond.toNat < 6) (h : Runs t g 2 0 [b, a] s s1)
    (hc : Clean [b, a]) : runWord t g (compareSem t cond k negate) s =
      retireNext t (withPred t k (condTrue cond.toNat a.val b.val ^^ negate) (curReplace t false 2 [] s1)) := by
  have hlegal : ¬cmpField cond k = true := by
    unfold cmpField
    rw [decide_eq_true_eq]
    exact not_or.mpr ⟨not_le.mpr hcond, hk⟩
  rw [← condHolds_eq_condTrue, ← putPred_eq_withPred hk]
  exact runWord_legal (if_neg hlegal) h hc rfl

theorem runWord_pset (hk : k ≠ 0) (h : Runs t g 1 0 [a] s s1) (hc : Clean [a]) : runWord t g (semPset t k) s =
    retireNext t (withPred t k (decide (a.val ≠ 0)) (curReplace t false 1 [] s1)) := by
  rw [← putPred_eq_withPred hk]
  exact runWord_legal (if_neg hk) h hc rfl

/-- A word that pops nothing fills nothing. -/
theorem eq_beginWord_of_runs {pushes : Nat} {cells : List PCell} (h : Runs t g 0 pushes cells s s1) : s1 = beginWord t s :=
  Option.some.inj (h.stands.filled.symm.trans (ensure_resident (Nat.zero_le _)))

/-- PINV reads the predicate as it stands where no drain has met the words in flight. -/
theorem runWord_pinv (hk : k ≠ 0) (h : Runs t g 0 0 [] s s1) (ho : (s.thr t).oldPreds = []) : runWord t g (semPinv t k) s =
    retireNext t (withPred t k (!(s.thr t).arch.pred k) s1) := by
  have hread : (s1.thr t).guardPred k = (s.thr t).arch.pred k := by
    rw [eq_beginWord_of_runs h, beginWord_guardPred, guardPred_plain k ho]
  rw [← hread, ← putPred_eq_withPred hk]
  exact runWord_legal (if_neg hk) h (fun _ hx => absurd hx List.not_mem_nil) rfl

/-- Settles O14: the legal words by their results, the FIELD encodings by the illegal-opcode test, which comes before the guard. -/
theorem predicateResults : Obligations.PredicateResults := by
  intro t g a b s s1 cond k bad
  refine ⟨fun hk => ⟨fun hcond h hc => ⟨?_, ?_⟩, fun h hc => ?_, fun h ho => ?_⟩, fun hs hf => ?_, fun hs hk => ?_⟩
  · have hrun := runWord_compare false hk hcond h hc
    rw [Bool.xor_false] at hrun
    exact congrArg Host.Outcome.next hrun
  · have hrun := runWord_compare true hk hcond h hc
    rw [Bool.xor_true] at hrun
    exact congrArg Host.Outcome.next hrun
  · exact congrArg Host.Outcome.next (runWord_pset hk h hc)
  · exact congrArg Host.Outcome.next (runWord_pinv hk h ho)
  · have hi (negate : Bool) : (compareSem t cond k negate).illegal = some 1 := if_pos (decide_eq_true hf)
    exact ⟨congrArg Host.Outcome.next (runWord_illegal hs (hi false)), congrArg Host.Outcome.next (runWord_illegal hs (hi true))⟩
  · exact ⟨congrArg Host.Outcome.next (runWord_illegal hs (if_pos hk)), congrArg Host.Outcome.next (runWord_illegal hs (if_pos hk))⟩

end Sys2Proof.Proofs
end
